-- ==== Sys2Proof/Word.lean ====
section
/-! DEFINITION. The widths the manual gives its words: bytes of host memory, 16-bit running counts, 32-bit stamps. -/

namespace Sys2Proof

/-- One byte of a record that crosses the link (spec/06, section 6.9). -/
abbrev Byte := BitVec 8

/-- A running count: POST, the taken count, the retired count, a docket's sequence number (spec/00, Running counts). -/
abbrev Count := BitVec 16

/-- A value of the timebase (spec/00, Time; R21). -/
abbrev Stamp := BitVec 32

end Sys2Proof
end

