-- ==== Sys2Proof/Syntax.lean ====
section
/-! DEFINITION. The commands of the block: one constructor of `Instr` per row of spec/opcode_table.json. -/

namespace Sys2Proof

/-- What the lens line does, as the tap's receive bit clock sees it (R24). -/
inductive LineEvent where
  /-- the line is high, without a start bit, for `bits` more bit times -/
  | idle (bits : Nat)
  /-- the falling edge to a start bit -/
  | start
  /-- the middle of a byte's stop bit: the eight data bits and the stop bit as the tap sampled them in order of time
  (bit 0 of `samples` first, bit 8 the stop bit) -/
  | stop (samples : BitVec 9)
deriving DecidableEq, Repr

/-- The commands of the block, one per row of spec/opcode_table.json. `tag` names the request of the memory port that
a reply, an acknowledgement or a bus error answers. -/
inductive Instr where
  | powerOnReset
  | tick
  | eraYoungClear
  | sync
  /-- what the lens line does up to and with this command; the run that it closes is checked (log entry 22) -/
  | lensMessage (line : List LineEvent)
  | quietTimerExpiry
  /-- the measured die temperature, in thousandths of a degree Celsius -/
  | temperatureSample (milliCelsius : Int)
  /-- bits 0 to 4: DONE, RUSH, FAULT, ERROR, CANCEL (CTRL bits 8 to 12, R128) -/
  | ack (mask : BitVec 5)
  | clearFaults
  | errorClear
  /-- CTRL bits 17 and 16 -/
  | irqEnableUpdate (update enable : Bool)
  | cancel
  | modeRun
  | modeReopen
  | softReset
  | postWrite (value : BitVec 32)
  | xbaseWrite (value : BitVec 32)
  /-- a write of `width` bytes at `offset` of the register window -/
  | otherRegisterWrite (offset width : Nat) (value : BitVec 32)
  | setupReadReturn (tag : Nat) (bytes : List Byte)
  | setupReadFault (tag : Nat)
  | takeDocket
  | frameDocket (tag : Nat) (bytes : List Byte)
  | installDocket (tag : Nat) (bytes : List Byte)
  | dropDocket (tag : Nat) (bytes : List Byte)
  | trimNudge (tag : Nat) (bytes : List Byte)
  | trimSet (tag : Nat) (bytes : List Byte)
  | optionsDocket (tag : Nat) (bytes : List Byte)
  | badKindDocket (tag : Nat) (bytes : List Byte)
  | installValidation (tag : Nat) (bytes : List Byte)
  | imageReadFault (tag : Nat)
  | resolveFrame
  | pick
  | bandReadReturn (tag : Nat) (bytes : List Byte)
  | bandWriteAck (tag : Nat)
  | bandBusError (tag : Nat)
  | memoryRequestTimeout (tag : Nat)
  | drainEnd
  | outcomeTakeUp
  | outcomeWriteAck (tag : Nat)
  | reportWriteTakeUp
  | reportWriteAck (tag : Nat)
  | signallingUpdate
  | exchangeFault (tag : Nat)
  | markDocket
  | cancelComplete
  | badTrimMode (tag : Nat) (bytes : List Byte)
deriving DecidableEq, Repr

end Sys2Proof
end

