-- ==== Sys2Proof/Decode.lean ====
section
/-! DEFINITION. The decoder over the rows of spec/opcode_table.json that give bits: the table gives no row any. -/

namespace Sys2Proof

/-- The command a word spells by the table's bits. Every row's "fields" is empty and none has "fixed", so no word
spells a command (log entry 3). -/
def decodeTableWord (_nbits _w : Nat) : Option Instr := none

end Sys2Proof
end

