-- ==== Sys2Proof/Config.lean ====
section
/-! DEFINITION. What the manual fixes for every part (limits, thresholds, offsets) and the free values it leaves
open. -/

namespace Sys2Proof

/-- The status of a lens state lookup (R41). -/
inductive LookupStatus where
  | exact | between | held | stale | missing
deriving DecidableEq, Repr, Inhabited

namespace Config

/-- ID bits 31..16 (R128). -/
def familyCode : BitVec 16 := 0x7214
/-- ID bits 7..0 (R128). -/
def revision : BitVec 8 := 1
/-- The exchange area's length in bytes (R105). -/
def exchangeBytes : Nat := 20480
/-- The report block's offset in the exchange area (R105). -/
def reportOffset : Nat := 256
/-- The docket strip's offset in the exchange area (R105). -/
def stripOffset : Nat := 4096
/-- A docket's length in bytes (R105). -/
def docketBytes : Nat := 256
/-- How many bytes of a docket the intake unit reads (R112). -/
def docketReadBytes : Nat := 128
/-- How many bytes of the setup block a RUN request reads (R164). -/
def setupReadBytes : Nat := 22
/-- The profile table's slots (R3). -/
def slotCount : Nat := 12
/-- The work list's depth (R84). -/
def workDepth : Nat := 8
/-- The lens state log's depth (R36). -/
def logDepth : Nat := 64
/-- Output rows of a band (R64). -/
def bandRows : Nat := 32
/-- The timebase value that ends the young part of an era (R21). -/
def eraYoungEnd : Nat := 2000
/-- Byte 0 of a lens message (R25, R135). -/
def marker : Byte := 0x6C
/-- The bit times of idle line that close a run (R24). -/
def closingGap : Nat := 32
/-- The temperature code that starts the warning condition (R155). -/
def warnStart : Nat := 140
/-- The temperature code at or below which the warning condition ends (R155). -/
def warnEnd : Nat := 131
/-- The temperature code that starts the shutdown condition (R156). -/
def shutdownStart : Nat := 158
/-- The temperature code at or below which the shutdown condition ends (R156). -/
def shutdownEnd : Nat := 144
/-- The shortest and the longest profile image (R8). -/
def imageMin : Nat := 36
def imageMax : Nat := 1072
/-- Limits of the centre trims, the scale trim, a nudge step, a scale delta and u (R2, R18). -/
def centreLimit : Int := 1023
def scaleLimit : Int := 255
def nudgeLimit : Int := 64
def deltaMin : Int := -16384
def deltaMax : Int := 16383
def uMax : Nat := 8192

/-- FREE VALUE (DESIGN CHOICE, log entry 9): the status of a lookup whose stamps R42's table covers by no row, taken as
far as R42 leaves it open (`Machine.freeStatus`). -/
opaque freeStatus : Nat → LookupStatus
/-- FREE VALUE (DESIGN CHOICE, log entry 10): which one a lookup takes of several samples that have its stamp (R42), or
of several adjacent pairs that have it between them (R43). -/
opaque freeChoice : Nat → Nat
/-- FREE VALUE (DESIGN CHOICE, log entry 10): one less than the focal length, 1..65535, of a BETWEEN lookup with no
adjacent pair around its stamp, which no log within R36 has. -/
opaque freeFocal : Nat → Fin 65535
/-- FREE VALUE (DESIGN CHOICE, log entries 13 and 14): how many of the requests it has not yet issued a band, or an
image's reading, issues at one of its events. -/
opaque freeIssue : Nat → Nat
/-- FREE VALUE (DESIGN CHOICE, log entry 14): the length of an image's next read, from what is left of its extent. -/
opaque freePiece : Nat → Nat → Nat

end Config
end Sys2Proof
end

