-- ==== Sys2Proof/Machine/State.lean ====
section
/-! DEFINITION. The state of the block as plain data, its faults and refusals, and the state after power-on reset. -/

namespace Sys2Proof.Machine

/-- What stops the machine with a fault: nothing. The block has no command for which the spec gives no effect, and a
command whose event cannot arise in the state changes nothing (log entry 1). -/
inductive Fault where
deriving DecidableEq, Repr

/-- Why a command has no meaning. -/
inductive Refusal where
  /-- Raised by `exec` alone, for a command that has no meaning yet (none is left). Safe: the machine stops. -/
  | notModelled (mnemonic : String)
deriving DecidableEq, Repr

/-! ### Names of the manual -/

/-- The operating state (R162). -/
inductive OpState where
  | setup | run | hot | halted
deriving DecidableEq, Repr

/-- The missing policy (R143). -/
inductive MissingPolicy where
  | pass | refuse
deriving DecidableEq, Repr

/-- The stale policy (R143). -/
inductive StalePolicy where
  | hold | pass
deriving DecidableEq, Repr

/-- The register-level errors (R151). -/
inductive ErrorCode where
  | postState | postRange | xbaseLocked | xbaseAlign | setupInvalid | setupReadFault | reopenBusy | cancelState
  | exchangeFault | modeState
deriving DecidableEq, Repr

/-- The reasons of a REFUSED or ABANDONED docket (R131). -/
inductive Reason where
  | badSlot | noFreeSlot | imageLength | outOfWindow | memoryFault | badLayout | badStationCount | trimRange
  | focalOrder | badKnotCount | knotOrder | valueRange | duplicateLens | slotEmpty | badTrimMode | badOption | badKind
  | badSource | badGeometry | badStep | badPitch | badAlign | badWhite | planeOverlap | badFocal | noLensData
  | noProfile | overheat
deriving DecidableEq, Repr

/-- The notes (R131). -/
inductive Note where
  | focalClamped | lensHeld | lensStale | noLensData | noProfile | uncorrected | curveSaturated | fillClamped | warm
  | border | parked | atLimit
deriving DecidableEq, Repr

/-- The outcomes a docket receives (R118, R131). -/
inductive DocketOutcome where
  | done | doneNoted | refused | abandoned | cancelled
deriving DecidableEq, Repr

/-- The fault latches (R146, R147). -/
inductive Latch where
  | lensQuiet | lensChange | heatWarn | heatShutdown | memory
deriving DecidableEq, Repr

/-- The live conditions behind three of the latches (R146). -/
inductive Condition where
  | quiet | warning | shutdown
deriving DecidableEq, Repr

/-- The colour planes of a frame (R65). -/
inductive Channel where
  | red | green | blue
deriving DecidableEq, Repr

/-- One thing for each colour plane. -/
structure Rgb (α : Type) where
  r : α
  g : α
  b : α
deriving DecidableEq, Repr

/-! ### The profile table (chapter 1) -/

/-- A lens identity (R1): model code and extender code. -/
structure LensId where
  model : Nat
  ext   : Nat
deriving DecidableEq, Repr

/-- A knot of a station (R2): u and the three scale deltas. -/
structure Knot where
  u   : Nat
  val : Rgb Int
deriving DecidableEq, Repr

/-- A station (R2): its focal length, in 0.1 mm, and its knots. -/
structure Station where
  focal : Nat
  knots : List Knot
deriving DecidableEq, Repr

/-- The trims of a slot (R3): centre trim x and y, scale trim. -/
structure Trims where
  x     : Int
  y     : Int
  scale : Int
deriving DecidableEq, Repr

/-- What a READY slot holds (R2, R3). -/
structure Profile where
  ident    : LensId
  stations : List Station
  trims    : Trims
deriving DecidableEq, Repr

/-- A slot of the profile table (R3). An EMPTY and a LOADING slot hold nothing, and their trims are 0. -/
inductive Slot where
  | empty | loading
  | ready (p : Profile)
deriving DecidableEq, Repr

/-! ### The lens tap and the lens state log (chapter 2) -/

/-- A sample of the lens state log (R36). -/
structure Sample where
  stamp : Stamp
  focal : Nat
deriving DecidableEq, Repr

/-- What the duplicate check compares (R26). -/
structure MessageKey where
  ident : LensId
  kind  : Nat
  seq   : Nat
deriving DecidableEq, Repr

/-- One byte heard on the lens tap (R24): its eight data bits and its stop bit as the tap sampled them in order of
time (bit 0 of `samples` first, bit 8 the stop bit), and the timebase value recorded at its stop bit. -/
structure HeardByte where
  samples  : BitVec 9
  stopTime : Stamp
deriving DecidableEq, Repr

/-- A run of bytes (R24), and whether a SYNC pulse has come since the start bit of its first byte (R22, R25). -/
structure Run where
  bytes       : List HeardByte
  crossedSync : Bool
deriving DecidableEq, Repr

/-- Where the tap's receiver stands on the line (R24): looking for a start bit; within a byte; after a byte whose stop
bit was low, waiting for the line to return high. -/
inductive LinePhase where
  | idle | inByte | heldLow
deriving DecidableEq, Repr

/-- The tap's receiver (R24): how many bit times the line has idled, counted up to the 32 of a closing gap, and the run
in progress, from the start bit of its first byte to the end of its closing gap. -/
structure Receiver where
  phase    : LinePhase
  idleBits : Nat
  run      : Option Run
deriving DecidableEq, Repr

/-- The lens tap with its receiver, its tracker, its log and the timebase (R21 to R39). -/
structure Tap where
  rx         : Receiver
  timebase   : Stamp
  eraYoung   : Bool
  latency    : Nat
  quietMs    : Nat
  last       : Option MessageKey
  dropped    : BitVec 16
  duplicates : BitVec 16
  glitches   : BitVec 16
  current    : Option LensId
  candidate  : Option LensId
  epoch      : BitVec 8
  log        : List Sample
  quietTimer : Nat
  quiet      : Bool
deriving DecidableEq, Repr

/-! ### Frames and the work list (chapters 3 to 5) -/

/-- The edge policy (R57). -/
inductive EdgePolicy where
  | edge | fill
deriving DecidableEq, Repr

/-- The geometry of a frame as its docket gives it (R60, R65). -/
structure Geometry where
  inAddr   : Rgb Nat
  inPitch  : Nat
  w        : Nat
  h        : Nat
  ox       : Nat
  oy       : Nat
  k        : Nat
  outAddr  : Rgb Nat
  outPitch : Nat
deriving DecidableEq, Repr

/-- The host-written fields of a FRAME docket (R131, R132). -/
structure FrameFields where
  rush       : Bool
  geo        : Geometry
  stamp      : Stamp
  source     : Nat
  edgeField  : Nat
  given      : LensId
  givenFocal : Nat
  wl         : Nat
  fill       : Rgb Nat
deriving DecidableEq, Repr

/-- The five result fields that resolution fixes (R59); `none` is written as model 0, extender 0, or as 0xFF. -/
structure ResultFields where
  ident    : Option LensId
  focal    : Nat
  slot     : Option Nat
  stations : Option (Nat × Nat)
  weight   : Nat
deriving DecidableEq, Repr

/-- The states of an entry (R85). -/
inductive EntryState where
  | waiting | running | parked
deriving DecidableEq, Repr

/-- An entry of the work list (R60, R84). -/
structure Entry where
  seq      : Count
  rush     : Bool
  curve    : Rgb (List Int)
  cx       : Int
  cy       : Int
  geo      : Geometry
  wl       : Nat
  edge     : EdgePolicy
  fill     : Rgb Nat
  state    : EntryState
  nextBand : Nat
  notes    : BitVec 16
  result   : ResultFields
  border   : Nat
deriving DecidableEq, Repr

/-- What an entry is to be written with (R94, R99 to R102). -/
inductive Verdict where
  | finished
  | abandoned (reason : Reason)
  | cancelled
deriving DecidableEq, Repr

/-- One input row in the band cache (R78). -/
structure CachedRow where
  channel : Channel
  row     : Nat
  samples : List Nat
deriving DecidableEq, Repr

/-- The three writes of an answer (R118). -/
inductive AnswerPart where
  | reasonNotes | results | outcome
deriving DecidableEq, Repr

/-- The three writes of a report block write (R125). -/
inductive ReportPart where
  | leading | body | trailing
deriving DecidableEq, Repr

/-- What a request of the memory port is for. An image read is named by its offset in the image. -/
inductive Use where
  | setupBlock
  | docket
  | image (offset : Nat)
  | bandRead (c : Channel) (row : Nat)
  | bandWrite (c : Channel) (row : Nat)
  | answer (p : AnswerPart)
  | report (p : ReportPart)
deriving DecidableEq, Repr

/-- What a request carries over the link: a read of `length` bytes, or a write of pieces, each an address and the bytes
stored from it upward. -/
inductive Access where
  | read (addr length : Nat)
  | write (pieces : List (Nat × List Byte))
deriving DecidableEq, Repr

/-- The phase of the remap engine (R86). The entry it serves is the RUNNING entry (R84, R85). In BAND it holds the band
cache, the band's border tally (R73, R78) and the reads, then the writes, that it has not yet issued (R80, R81; log
entry 13); in DRAIN, what the frame is to be written with. -/
inductive Engine where
  | free
  | band (cache : List CachedRow) (tally : Nat) (rest : List (Use × Access))
  | drain (verdict : Verdict)
  | outcome
deriving DecidableEq, Repr

/-! ### Intake, writers, memory port (chapters 4 and 6) -/

/-- The phase of the intake unit, with what it holds of the docket in hand (R111). EXECUTING stands between an
INSTALL's checks 1 to 3 and its outcome, and holds the slot, the image as far as it has arrived and the reads of its
extent not yet issued (R9, log entry 14); `place` holds a FRAME that has passed its checks (R117). -/
inductive IntakePhase where
  | idle
  | reading (seq : Count)
  | executing (seq : Count) (slot : Nat) (image : List Byte) (unissued : List (Use × Access))
  | place (seq : Count) (frame : FrameFields)
  | writing
deriving DecidableEq, Repr

/-- The intake unit (R108, R111). -/
structure Intake where
  taken   : Count
  retired : Count
  map     : BitVec 64
  install : Bool
  phase   : IntakePhase
deriving DecidableEq, Repr

/-- An answer as the outcome writer writes it (R118): what it writes of reason, notes and result fields (`none` or an
empty list where the outcome defines none; a result field is its offset in the docket and its bytes), and what it hands
to the signalling unit (R120). -/
structure Answer where
  seq     : Count
  kind    : Nat
  rush    : Bool
  outcome : DocketOutcome
  reason  : Option Reason
  notes   : Option (BitVec 16)
  results : List (Nat × List Byte)
deriving DecidableEq, Repr

/-- An answer waiting for the outcome writer (R97): the intake unit's, or an entry's, whose notes, result fields and
completion stamp are taken when the writer takes it up (R95). -/
inductive WaitingAnswer where
  | intake (answer : Answer)
  | entry (seq : Count) (verdict : Verdict)
deriving DecidableEq, Repr

/-- How far the outcome writer has come with the answer in hand (R122): its writes outstanding; a report block write
asked for and not yet taken up; that write taken up; ready for the signalling update. -/
inductive Stage where
  | writing | reportAsked | reportCarried | update
deriving DecidableEq, Repr

/-- The answer in hand, its writes not yet issued (R98, log entry 31), and whether its retire check advanced the
retired count to equal POST (R122). -/
structure InHand where
  answer   : Answer
  ofEntry  : Bool
  stage    : Stage
  metPost  : Bool
  unissued : List (Use × Access)
deriving DecidableEq, Repr

/-- The outcome writer (R97, R118). -/
structure OutcomeWriter where
  inHand  : Option InHand
  waiting : List WaitingAnswer
deriving DecidableEq, Repr

/-- The report writer (R123, R124). -/
structure ReportWriter where
  seq     : BitVec 16
  writing : Bool
  pending : Bool
deriving DecidableEq, Repr

/-- An outstanding request. `live` is false from the moment its reply, acknowledgement or error no longer changes
anything (R16, R80, R81, R104, R126, R171). -/
structure Request where
  tag    : Nat
  use    : Use
  access : Access
  live   : Bool
deriving DecidableEq, Repr

/-- The memory port: its outstanding requests in the order issued, and the name the next one gets (the model's own,
log entry 5). -/
structure Port where
  reqs    : List Request
  nextTag : Nat
deriving DecidableEq, Repr

/-! ### Signalling, thermal monitor, register window (chapters 7 to 9) -/

/-- The pending flags (R137). -/
structure Flags where
  done   : Bool
  rush   : Bool
  fault  : Bool
  error  : Bool
  cancel : Bool
deriving DecidableEq, Repr

/-- The fault latches (R146, R147). -/
structure Latches where
  lensQuiet    : Bool
  lensChange   : Bool
  heatWarn     : Bool
  heatShutdown : Bool
  memory       : Bool
deriving DecidableEq, Repr

/-- The report mask (R143). -/
structure ReportMask where
  lensQuiet  : Bool
  lensChange : Bool
  heatWarn   : Bool
deriving DecidableEq, Repr

/-- The signalling unit's copies of the live conditions (R146). -/
structure Live where
  quiet    : Bool
  warning  : Bool
  shutdown : Bool
deriving DecidableEq, Repr

/-- The signalling unit (chapter 7). -/
structure Signalling where
  flags      : Flags
  irqEnable  : Bool
  counter    : Nat
  grouping   : Nat
  missing    : MissingPolicy
  stale      : StalePolicy
  mask       : ReportMask
  latches    : Latches
  live       : Live
  firstError : Option ErrorCode
deriving DecidableEq, Repr

/-- The thermal monitor (R154). -/
structure Thermal where
  code     : BitVec 8
  warning  : Bool
  shutdown : Bool
deriving DecidableEq, Repr

/-- What RUN entry locks (R106, R165): Wf, Hf, window low, window high. -/
structure Params where
  wf   : Nat
  hf   : Nat
  low  : Nat
  high : Nat
deriving DecidableEq, Repr

/-- How far a cancel has come (R169): work below the boundary left; the completion's report block write asked for;
taken up; acknowledged. -/
inductive CancelStage where
  | working | reportAsked | reportCarried | reported
deriving DecidableEq, Repr

/-- A cancel in progress (R167). -/
structure Cancel where
  boundary : Count
  stage    : CancelStage
deriving DecidableEq, Repr

/-- The register window (chapter 9). `locked` is `none` while Wf, Hf and the window are unlocked; `cancel` is `none`
while no cancel is in progress. -/
structure Window where
  state     : OpState
  post      : Count
  xbase     : BitVec 32
  setupRead : Bool
  locked    : Option Params
  cancel    : Option Cancel
deriving DecidableEq, Repr

/-- The state of the block, block by block (spec/00, Block overview), the count of free values drawn (the model's own,
log entry 9) and the queue of commands waiting, first in, first out. -/
structure State where
  win     : Window
  intake  : Intake
  slots   : List Slot
  tap     : Tap
  work    : List Entry
  engine  : Engine
  writer  : OutcomeWriter
  report  : ReportWriter
  port    : Port
  sig     : Signalling
  thermal : Thermal
  free    : Nat
  pending : List Instr
deriving DecidableEq, Repr

/-! ### Power-on reset (R172) -/

def Window.reset : Window :=
  { state := .setup, post := 0, xbase := 0, setupRead := false, locked := none, cancel := none }

def Intake.reset : Intake :=
  { taken := 0, retired := 0, map := 0, install := false, phase := .idle }

/-- The receiver right after power-on reset: looking for a start bit, no run, and no bit time of idle line counted
(DESIGN CHOICE, log entry 22). -/
def Receiver.reset : Receiver := { phase := .idle, idleBits := 0, run := none }

def Tap.reset : Tap :=
  { rx := .reset, timebase := 0, eraYoung := true, latency := 0, quietMs := 250, last := none, dropped := 0
    duplicates := 0, glitches := 0, current := none, candidate := none, epoch := 0, log := [], quietTimer := 0
    quiet := false }

def OutcomeWriter.reset : OutcomeWriter := { inHand := none, waiting := [] }

def ReportWriter.reset : ReportWriter := { seq := 0, writing := false, pending := false }

def Port.reset : Port := { reqs := [], nextTag := 0 }

def Flags.clear : Flags := { done := false, rush := false, fault := false, error := false, cancel := false }

def Latches.clear : Latches :=
  { lensQuiet := false, lensChange := false, heatWarn := false, heatShutdown := false, memory := false }

def Signalling.reset : Signalling :=
  { flags := Flags.clear, irqEnable := false, counter := 0, grouping := 0, missing := .pass, stale := .hold
    mask := { lensQuiet := false, lensChange := false, heatWarn := false }, latches := Latches.clear
    live := { quiet := false, warning := false, shutdown := false }, firstError := none }

def Thermal.reset : Thermal := { code := 0, warning := false, shutdown := false }

/-- The block right after power-on reset (R172), with no command waiting. -/
def State.reset : State :=
  { win := .reset, intake := .reset, slots := List.replicate Config.slotCount .empty, tap := .reset, work := []
    engine := .free, writer := .reset, report := .reset, port := .reset, sig := .reset, thermal := .reset
    free := 0, pending := [] }

end Sys2Proof.Machine
end

