-- ==== Sys2Proof/Machine/Arith.lean ====
section
/-! DEFINITION. The arithmetic the manual names once for all chapters: rounding, clamping, stamp and count comparison,
saturating counters, little-endian fields. -/

namespace Sys2Proof.Machine

/-- Nearest-away rounding of `num / den` for a positive `den` (spec/00, Rounding): to the nearest integer, a value
exactly halfway going away from zero. -/
def nearestAway (num : Int) (den : Nat) : Int :=
  if num < 0 then -(((2 * num.natAbs + den) / (2 * den) : Nat) : Int)
  else ((2 * num.natAbs + den) / (2 * den) : Nat)

/-- "Clamped to" the range `lo..hi` (spec/00, Rounding). -/
def clampInt (lo hi x : Int) : Int := max lo (min hi x)

/-- Whether `x` lies within `lo..hi`, both ends included. -/
def within (lo hi x : Int) : Bool := decide (lo ≤ x ∧ x ≤ hi)

/-- The difference `b − a` of two stamps, taken modulo 2^32 and read as signed (spec/00, Time). -/
def stampDiff (a b : Stamp) : Int := (b - a).toInt

/-- "a is earlier than b" (spec/00, Time). -/
def earlier (a b : Stamp) : Bool := decide (0 < stampDiff a b)

/-- How far a count lies ahead of the retired count, modulo 65536 (spec/00, Running counts). -/
def ahead (retired c : Count) : Nat := (c - retired).toNat

/-- One step of a tap counter, which saturates at 65535 (R28). -/
def satInc (c : BitVec 16) : BitVec 16 := if c = 65535 then c else c + 1

/-- The value of a little-endian field's bytes. -/
def leValue : List Byte → Nat
  | [] => 0
  | b :: bs => b.toNat + 256 * leValue bs

/-- The `n` little-endian bytes of `v` modulo 256^n. -/
def leBytes : Nat → Nat → List Byte
  | 0, _ => []
  | n + 1, v => BitVec.ofNat 8 v :: leBytes n (v / 256)

/-- The unsigned field of `size` bytes at `offset` of a record. -/
def fieldAt (record : List Byte) (offset size : Nat) : Nat := leValue ((record.drop offset).take size)

/-- The signed 16-bit field at `offset` of a record. -/
def signedAt (record : List Byte) (offset : Nat) : Int := (BitVec.ofNat 16 (fieldAt record offset 2)).toInt

/-- The two bytes of a signed 16-bit field. -/
def signedBytes (x : Int) : List Byte := leBytes 2 (BitVec.ofInt 16 x).toNat

end Sys2Proof.Machine
end

