-- ==== Sys2Proof/Machine/Flags.lean ====
section
/-! DEFINITION. The codes of notes, reasons, outcomes and errors, and the signalling unit's operations: pending flags,
fault latches, first-error code, grouping counter (chapter 7, R131, R151). -/

namespace Sys2Proof.Machine

/-! ### Codes -/

/-- The bit of a note in the notes field (R131). -/
def Note.bit : Note → Nat
  | .focalClamped => 0 | .lensHeld => 1 | .lensStale => 2 | .noLensData => 3 | .noProfile => 4 | .uncorrected => 5
  | .curveSaturated => 6 | .fillClamped => 7 | .warm => 8 | .border => 9 | .parked => 10 | .atLimit => 11

/-- A note set with one more note; a note set twice is present once (R58). -/
def addNote (notes : BitVec 16) (n : Note) : BitVec 16 := notes ||| (1#16 <<< n.bit)

/-- A note set with the note where the condition holds. -/
def noteIf (c : Bool) (n : Note) (notes : BitVec 16) : BitVec 16 := if c then addNote notes n else notes

/-- Whether a note is in a note set. -/
def hasNote (notes : BitVec 16) (n : Note) : Bool := notes.getLsbD n.bit

/-- The reason codes (R131). -/
def Reason.code : Reason → Nat
  | .badSlot => 1 | .noFreeSlot => 2 | .imageLength => 3 | .outOfWindow => 4 | .memoryFault => 5 | .badLayout => 6
  | .badStationCount => 7 | .trimRange => 8 | .focalOrder => 9 | .badKnotCount => 10 | .knotOrder => 11
  | .valueRange => 12 | .duplicateLens => 13 | .slotEmpty => 14 | .badTrimMode => 15 | .badOption => 16
  | .badKind => 17 | .badSource => 18 | .badGeometry => 19 | .badStep => 20 | .badPitch => 21 | .badAlign => 22
  | .badWhite => 23 | .planeOverlap => 24 | .badFocal => 25 | .noLensData => 26 | .noProfile => 27 | .overheat => 28

/-- The outcome byte (R131). -/
def DocketOutcome.code : DocketOutcome → Nat
  | .done => 1 | .doneNoted => 2 | .refused => 3 | .abandoned => 4 | .cancelled => 5

/-- The first-error codes (R151). -/
def ErrorCode.code : ErrorCode → Nat
  | .postState => 1 | .postRange => 2 | .xbaseLocked => 3 | .xbaseAlign => 4 | .setupInvalid => 5
  | .setupReadFault => 6 | .reopenBusy => 7 | .cancelState => 8 | .exchangeFault => 9 | .modeState => 10

/-- The state field of STATUS (R128). -/
def OpState.code : OpState → Nat
  | .setup => 0 | .run => 1 | .hot => 2 | .halted => 3

/-! ### Pending flags (R136, R137) -/

/-- R136: the level of the interrupt output. -/
def irqOutput (g : Signalling) : Bool :=
  g.irqEnable && (g.flags.done || g.flags.rush || g.flags.fault || g.flags.error || g.flags.cancel)

/-- R137: the flags an ACK mask leaves (bit 0 DONE, 1 RUSH, 2 FAULT, 3 ERROR, 4 CANCEL, R128). -/
def Flags.ack (f : Flags) (mask : BitVec 5) : Flags :=
  { done := f.done && !mask.getLsbD 0, rush := f.rush && !mask.getLsbD 1, fault := f.fault && !mask.getLsbD 2
    error := f.error && !mask.getLsbD 3, cancel := f.cancel && !mask.getLsbD 4 }

/-! ### Register-level errors (R151) -/

/-- R151: an error sets ERROR, and the first-error code where that is 0. -/
def Signalling.error (g : Signalling) (e : ErrorCode) : Signalling :=
  { g with flags := { g.flags with error := true }, firstError := g.firstError.or (some e) }

/-! ### Fault latches (R146 to R150) -/

/-- Whether a latch is set. -/
def Latches.get (l : Latches) : Latch → Bool
  | .lensQuiet => l.lensQuiet | .lensChange => l.lensChange | .heatWarn => l.heatWarn
  | .heatShutdown => l.heatShutdown | .memory => l.memory

/-- The latches with one of them set. -/
def Latches.set (l : Latches) : Latch → Latches
  | .lensQuiet => { l with lensQuiet := true } | .lensChange => { l with lensChange := true }
  | .heatWarn => { l with heatWarn := true } | .heatShutdown => { l with heatShutdown := true }
  | .memory => { l with memory := true }

/-- R148: whether a latch going from clear to set raises FAULT. -/
def ReportMask.raises (m : ReportMask) : Latch → Bool
  | .lensQuiet => m.lensQuiet | .lensChange => m.lensChange | .heatWarn => m.heatWarn
  | .heatShutdown => true | .memory => true

/-- R146 to R148: the cause of a latch. A latch that is already set stays set and raises nothing further. -/
def Signalling.latch (g : Signalling) (k : Latch) : Signalling :=
  { g with
    latches := g.latches.set k
    flags := { g.flags with fault := g.flags.fault || (!g.latches.get k && g.mask.raises k) } }

/-- The latch that follows a live condition (R146). -/
def Condition.latch : Condition → Latch
  | .quiet => .lensQuiet | .warning => .heatWarn | .shutdown => .heatShutdown

/-- The signalling unit's copy of a live condition (R146). -/
def Live.get (l : Live) : Condition → Bool
  | .quiet => l.quiet | .warning => l.warning | .shutdown => l.shutdown

/-- The copies with one of them replaced. -/
def Live.set (l : Live) (v : Bool) : Condition → Live
  | .quiet => { l with quiet := v } | .warning => { l with warning := v } | .shutdown => { l with shutdown := v }

/-- R146: a condition starts. Its copy is noted and its latch is set. -/
def Signalling.conditionStart (g : Signalling) (c : Condition) : Signalling :=
  { g.latch c.latch with live := g.live.set true c }

/-- R146: a condition ends. Its latch stays as it is. -/
def Signalling.conditionEnd (g : Signalling) (c : Condition) : Signalling :=
  { g with live := g.live.set false c }

/-- R149: CLEAR_FAULTS. -/
def Signalling.clearFaults (g : Signalling) : Signalling :=
  { g with latches :=
      { lensQuiet := g.latches.lensQuiet && g.live.quiet
        lensChange := false
        heatWarn := g.latches.heatWarn && g.live.warning
        heatShutdown := g.latches.heatShutdown && g.live.shutdown
        memory := false } }

/-! ### Completion grouping (R138 to R142) -/

/-- DONE set and the counter returned to 0. -/
def Signalling.announce (g : Signalling) : Signalling :=
  { g with flags := { g.flags with done := true }, counter := 0 }

/-- R139: the grouping counter counts a docket. -/
def Signalling.count (g : Signalling) : Signalling :=
  if g.counter + 1 = g.grouping then g.announce else { g with counter := g.counter + 1 }

/-- R141: the idle flush, where the retired count equals POST. -/
def Signalling.idleFlush (g : Signalling) (retiredIsPost : Bool) : Signalling :=
  if retiredIsPost ∧ 0 < g.counter then g.announce else g

/-- R142: a change of N. -/
def Signalling.setGrouping (g : Signalling) (n : Nat) : Signalling :=
  if (0 < n ∧ n ≤ g.counter) ∨ (n = 0 ∧ 0 < g.counter) then { g.announce with grouping := n }
  else { g with grouping := n }

/-- R138, R140: the signalling update for an answered docket. -/
def Signalling.update (g : Signalling) (rush : Bool) (outcome : DocketOutcome) (retiredIsPost : Bool) : Signalling :=
  (if rush then { g with flags := { g.flags with rush := true } }
   else if outcome ≠ .cancelled ∧ 0 < g.grouping then g.count
   else g).idleFlush retiredIsPost

/-- The values of N (R106, R144). -/
def groupingValid (n : Nat) : Bool := n ∈ [0, 1, 2, 4, 8, 16]

/-- The report mask of a byte: bits 0 to 2 are kept (R129, R144). -/
def ReportMask.ofByte (v : Nat) : ReportMask :=
  { lensQuiet := v.testBit 0, lensChange := v.testBit 1, heatWarn := v.testBit 2 }

/-! ### Soft reset (R150, R171) -/

/-- A latch re-judged from its live condition (R150). -/
def Signalling.rejudge (g : Signalling) (c : Condition) : Signalling :=
  if g.live.get c then g.latch c.latch else g

/-- R150, R171: the signalling unit at SOFT_RESET. Flags, IRQ enable, first-error code and counter are cleared, the
latches are cleared and then re-judged from the copies of the live conditions, and the option set is kept. -/
def Signalling.softReset (g : Signalling) : Signalling :=
  ((({ g with flags := .clear, irqEnable := false, firstError := none, counter := 0, latches := .clear }).rejudge
    .quiet).rejudge .warning).rejudge .shutdown

end Sys2Proof.Machine
end

