-- ==== Sys2Proof/Machine/Operands.lean ====
section
/-! DEFINITION. The byte layouts of section 6.9 of spec/06: the records the commands carry (setup block, dockets,
profile image, lens message) and the bytes the part writes (answers, report block). -/

namespace Sys2Proof.Machine

/-! ### Setup block (R129) -/

/-- The fields of the setup block. -/
structure SetupBlock where
  layout   : Nat
  wf       : Nat
  hf       : Nat
  quietMs  : Nat
  low      : Nat
  high     : Nat
  latency  : Nat
  grouping : Nat
  missing  : Nat
  stale    : Nat
  mask     : Nat
deriving DecidableEq, Repr

/-- R129: the setup block's fields in the 22 bytes read. -/
def setupFields (b : List Byte) : SetupBlock :=
  { layout := fieldAt b 0 2, wf := fieldAt b 2 2, hf := fieldAt b 4 2, quietMs := fieldAt b 6 2, low := fieldAt b 8 4
    high := fieldAt b 12 4, latency := fieldAt b 16 2, grouping := fieldAt b 18 1, missing := fieldAt b 19 1
    stale := fieldAt b 20 1, mask := fieldAt b 21 1 }

/-- R107: whether `size` bytes from `addr` lie within the window. -/
def inWindow (p : Params) (addr size : Nat) : Bool := decide (p.low ≤ addr ∧ addr + size ≤ p.high)

/-- What a setup block locks (R106, R165). -/
def SetupBlock.params (b : SetupBlock) : Params := { wf := b.wf, hf := b.hf, low := b.low, high := b.high }

/-- R106: the validity of a setup block read at XBASE. -/
def SetupBlock.valid (b : SetupBlock) (xbase : BitVec 32) : Bool :=
  decide (b.layout = 1)
    && decide (b.low % 4096 = 0 ∧ b.high % 4096 = 0 ∧ b.low < b.high)
    && inWindow b.params xbase.toNat Config.exchangeBytes
    && decide (b.wf % 16 = 0 ∧ 256 ≤ b.wf ∧ b.wf ≤ 8192)
    && decide (b.hf % 16 = 0 ∧ 256 ≤ b.hf ∧ b.hf ≤ 6144)
    && decide (8 ≤ b.quietMs ∧ b.quietMs ≤ 250)
    && decide (b.latency ≤ 2000)
    && groupingValid b.grouping
    && decide (b.missing ≤ 1)
    && decide (b.stale ≤ 1)

/-- The missing policy of a byte (R106, R144). -/
def MissingPolicy.ofByte (v : Nat) : MissingPolicy := if v = 1 then .refuse else .pass

/-- The stale policy of a byte (R106, R144). -/
def StalePolicy.ofByte (v : Nat) : StalePolicy := if v = 1 then .pass else .hold

/-! ### Dockets (R131 to R133) -/

/-- The kind byte of a docket (R131). -/
def docketKind (b : List Byte) : Nat := fieldAt b 0 1

/-- The fields of a FRAME docket (R131, R132). -/
def frameFields (b : List Byte) : FrameFields :=
  { rush := fieldAt b 1 1 == 1
    geo :=
      { inAddr := { r := fieldAt b 16 4, g := fieldAt b 20 4, b := fieldAt b 24 4 }
        inPitch := fieldAt b 28 4, w := fieldAt b 32 2, h := fieldAt b 34 2, ox := fieldAt b 36 2, oy := fieldAt b 38 2
        k := fieldAt b 46 1
        outAddr := { r := fieldAt b 56 4, g := fieldAt b 60 4, b := fieldAt b 64 4 }
        outPitch := fieldAt b 68 4 }
    stamp := BitVec.ofNat 32 (fieldAt b 40 4), source := fieldAt b 44 1, edgeField := fieldAt b 45 1
    given := { model := fieldAt b 48 2, ext := fieldAt b 50 1 }, givenFocal := fieldAt b 52 2, wl := fieldAt b 54 2
    fill := { r := fieldAt b 72 2, g := fieldAt b 74 2, b := fieldAt b 76 2 } }

/-- The slot field of an INSTALL, DROP or TRIM docket (R133). -/
def slotField (b : List Byte) : Nat := fieldAt b 16 1

/-- The image address and image length of an INSTALL docket (R133). -/
def imageAddr (b : List Byte) : Nat := fieldAt b 20 4
def imageLength (b : List Byte) : Nat := fieldAt b 24 2

/-- The mode and the three values of a TRIM docket (R133). -/
def trimMode (b : List Byte) : Nat := fieldAt b 17 1
def trimValues (b : List Byte) : Trims := { x := signedAt b 18, y := signedAt b 20, scale := signedAt b 22 }

/-! ### Profile image (R134) -/

/-- The fixed part of a profile image's header. -/
def imageLayout (b : List Byte) : Nat := fieldAt b 0 2
def imageIdent (b : List Byte) : LensId := { model := fieldAt b 2 2, ext := fieldAt b 4 1 }
def imageStations (b : List Byte) : Nat := fieldAt b 5 1
def imageTrims (b : List Byte) : Trims := { x := signedAt b 6, y := signedAt b 8, scale := signedAt b 10 }

/-- The knot at an offset of the image. -/
def knotAt (b : List Byte) (off : Nat) : Knot :=
  { u := fieldAt b off 2, val := { r := signedAt b (off + 4), g := signedAt b (off + 2), b := signedAt b (off + 6) } }

/-- The station record at an offset of the image, with as many knots as its knot count says. -/
def stationAt (b : List Byte) (off : Nat) : Station :=
  { focal := fieldAt b off 2
    knots := (List.range (fieldAt b (off + 2) 2)).map (fun i => knotAt b (off + 4 + 8 * i)) }

/-- The first `n` station records from an offset on, each starting where the one before it ends (R11). -/
def stationsFrom (b : List Byte) : Nat → Nat → List Station
  | 0, _ => []
  | n + 1, off => stationAt b off :: stationsFrom b n (off + 4 + 8 * fieldAt b (off + 2) 2)

/-- The profile an image holds (R134). -/
def imageProfile (b : List Byte) : Profile :=
  { ident := imageIdent b, stations := stationsFrom b (imageStations b) 16, trims := imageTrims b }

/-- The eight bytes of a knot in a profile image (R134). -/
def knotBytes (k : Knot) : List Byte :=
  leBytes 2 k.u ++ signedBytes k.val.g ++ signedBytes k.val.r ++ signedBytes k.val.b

/-- A station record of a profile image (R134). -/
def stationBytes (s : Station) : List Byte :=
  leBytes 2 s.focal ++ leBytes 2 s.knots.length ++ s.knots.flatMap knotBytes

/-- A profile as the host lays it out in a profile image (R134), the bytes not read being 0. -/
def imageBytes (p : Profile) : List Byte :=
  leBytes 2 1 ++ leBytes 2 p.ident.model ++ leBytes 1 p.ident.ext ++ leBytes 1 p.stations.length
    ++ signedBytes p.trims.x ++ signedBytes p.trims.y ++ signedBytes p.trims.scale ++ leBytes 4 0
    ++ p.stations.flatMap stationBytes

/-! ### Lens message (R135) -/

/-- The eight bytes of a lens message, check byte included (R135). -/
def lensBytes (ident : LensId) (kind focal seq : Nat) : List Byte :=
  let head := [Config.marker] ++ leBytes 2 ident.model ++ [BitVec.ofNat 8 (ident.ext + 16 * kind)]
    ++ leBytes 2 focal ++ leBytes 1 seq
  head ++ [255 - head.sum]

/-! ### What the part writes -/

/-- The bus address of a docket (R105). -/
def docketAddr (xbase : BitVec 32) (seq : Count) : Nat :=
  xbase.toNat + Config.stripOffset + Config.docketBytes * (seq.toNat % 64)

/-- A byte field that holds 0xFF for none (R59, R6). -/
def orNone (v : Option Nat) : List Byte := leBytes 1 (v.getD 0xFF)

/-- The result fields of an entry, at their offsets in the docket (R95, R132). -/
def entryResults (e : Entry) (completion : Stamp) : List (Nat × List Byte) :=
  let id := e.result.ident.getD { model := 0, ext := 0 }
  [(128, leBytes 2 id.model ++ leBytes 1 id.ext ++ orNone e.result.slot ++ leBytes 2 e.result.focal
      ++ orNone (e.result.stations.map Prod.fst) ++ orNone (e.result.stations.map Prod.snd)
      ++ leBytes 1 e.result.weight ++ leBytes 1 e.nextBand),
   (140, leBytes 4 completion.toNat ++ leBytes 4 e.border)]

/-- The result fields of an INSTALL: slot, station index, knot index, 0xFF where not applicable (R6, R133). -/
def installResults (slot station knot : Option Nat) : List (Nat × List Byte) :=
  [(128, orNone slot ++ orNone station ++ orNone knot)]

/-- The result field of a DROP (R17, R133). -/
def dropResults (id : LensId) : List (Nat × List Byte) := [(128, leBytes 2 id.model ++ leBytes 1 id.ext)]

/-- The result fields of a TRIM (R18, R133). -/
def trimResults (t : Trims) : List (Nat × List Byte) :=
  [(128, signedBytes t.x ++ signedBytes t.y ++ signedBytes t.scale)]

/-- The result field of an OPTIONS docket (R133, R144). -/
def optionsResults (firstInvalid : Option Nat) : List (Nat × List Byte) := [(128, orNone firstInvalid)]

/-- The first write of an answer: the reason byte at offset 5 and the notes at 6, each where the outcome defines it
(R118, R131). -/
def reasonNotesPieces (base : Nat) (a : Answer) : List (Nat × List Byte) :=
  (a.reason.toList.map fun r => (base + 5, leBytes 1 r.code))
    ++ (a.notes.toList.map fun n => (base + 6, leBytes 2 n.toNat))

/-- The second write of an answer: its result fields (R118). -/
def resultPieces (base : Nat) (a : Answer) : List (Nat × List Byte) :=
  a.results.map fun p => (base + p.1, p.2)

/-- The third write of an answer: the outcome byte at offset 4 (R118, R131). -/
def outcomePieces (base : Nat) (a : Answer) : List (Nat × List Byte) := [(base + 4, leBytes 1 a.outcome.code)]

/-- Bytes 2 to 251 of the report block (R123, R130). -/
def reportBody (s : State) : List Byte :=
  let id := s.tap.current.getD { model := 0, ext := 0 }
  let newest := s.tap.log.getLast?
  leBytes 2 s.intake.retired.toNat ++ leBytes 2 s.intake.taken.toNat ++ leBytes 2 id.model ++ leBytes 1 id.ext
    ++ leBytes 1 s.tap.epoch.toNat ++ leBytes 1 s.tap.log.length ++ leBytes 1 s.tap.quiet.toNat
    ++ leBytes 4 ((newest.map fun x => x.stamp.toNat).getD 0) ++ leBytes 2 ((newest.map Sample.focal).getD 0)
    ++ leBytes 2 s.tap.dropped.toNat ++ leBytes 2 s.tap.duplicates.toNat ++ leBytes 2 s.tap.glitches.toNat
    ++ leBytes 1 s.thermal.code.toNat ++ leBytes 3 0 ++ leBytes 4 s.tap.timebase.toNat
    ++ List.replicate 220 0

end Sys2Proof.Machine
end

