-- ==== Sys2Proof/Machine/Ops.lean ====
section
/-! DEFINITION. The shared operations over State: the memory port, the report writer's requests, the outcome writer's
queue, the slots, the engine's stop, entry to HALTED, SOFT_RESET. -/

namespace Sys2Proof.Machine

/-! ### Reading the state -/

/-- The states in which intake and the two writers work (R162): RUN and HOT. -/
def State.working (s : State) : Bool := s.win.state == .run || s.win.state == .hot

/-- What the intake checks, the resolver and the remap engine read of RUN entry's locked values (R106). While they are
unlocked no rule reads them; the zeros stand in states no run reaches (log entry 16). -/
def State.params (s : State) : Params := s.win.locked.getD { wf := 0, hf := 0, low := 0, high := 0 }

/-- R123, R166: whether the retired count equals POST. -/
def State.retiredIsPost (s : State) : Bool := s.intake.retired == s.win.post

/-! ### The memory port -/

/-- The request a reply names. -/
def Port.find (p : Port) (tag : Nat) : Option Request := p.reqs.find? (fun r => r.tag == tag)

/-- Requests issued, in order. -/
def Port.issueAll (p : Port) : List (Use × Access) → Port
  | [] => p
  | (use, access) :: rest =>
    Port.issueAll { reqs := p.reqs ++ [{ tag := p.nextTag, use, access, live := true }], nextTag := p.nextTag + 1 } rest

/-- A request ended by its reply, acknowledgement or error. -/
def Port.finish (p : Port) (tag : Nat) : Port := { p with reqs := p.reqs.filter (fun r => !(r.tag == tag)) }

/-- From now on the replies of these requests change nothing. -/
def Port.ignore (p : Port) (sort : Use → Bool) : Port :=
  { p with reqs := p.reqs.map (fun r => if sort r.use then { r with live := false } else r) }

/-- Whether a live request of one kind is outstanding. -/
def Port.has (p : Port) (sort : Use → Bool) : Bool := p.reqs.any (fun r => r.live && sort r.use)

def Use.isBandRead : Use → Bool
  | .bandRead _ _ => true
  | _ => false

def Use.isBandWrite : Use → Bool
  | .bandWrite _ _ => true
  | _ => false

def Use.isImage : Use → Bool
  | .image _ => true
  | _ => false

def Use.isAnswer : Use → Bool
  | .answer _ => true
  | _ => false

def Use.isReport : Use → Bool
  | .report _ => true
  | _ => false

/-- The requests of a band. -/
def Use.isBand (u : Use) : Bool := u.isBandRead || u.isBandWrite

/-- The uses that are exchange-area accesses whose bus error is an exchange fault (R126). -/
def Use.isExchange (u : Use) : Bool := u == .docket || u.isAnswer || u.isReport

/-- The length a read asked for. -/
def Access.readLength : Access → Option Nat
  | .read _ n => some n
  | .write _ => none

/-- Issue requests. -/
def State.issue (s : State) (rs : List (Use × Access)) : State := { s with port := s.port.issueAll rs }

/-- How many of a client's requests not yet issued are issued at one of its events: a free value, but at least one
where none of its requests is outstanding (log entries 13 and 14). -/
def issueCount (n : Nat) (outstanding : Bool) : Nat :=
  if outstanding then Config.freeIssue n else max 1 (Config.freeIssue n)

/-- The port after some of a client's requests not yet issued are issued, in their order, and those held back. -/
def Port.issueSome (p : Port) (n : Nat) (sort : Use → Bool) (rs : List (Use × Access)) : Port × List (Use × Access) :=
  let k := issueCount n (p.has sort)
  (p.issueAll (rs.take k), rs.drop k)

/-- What follows a reply to a client that issues its requests a part at a time: `more` of them where some are not yet
issued, or a wait for those outstanding of this kind, or, with none of either left, `finished`. -/
def State.proceed (s : State) (kind : Use → Bool) (unissued : List (Use × Access)) (more finished : State → State) :
    State :=
  if !unissued.isEmpty then more s else if s.port.has kind then s else finished s

/-- A reply, an acknowledgement or a bus error for the request `tag`. Where the port holds no such request, or `fits`
says that this command is not about it, nothing happens. A request that is no longer live just ends (R16, R81, R104,
R126, R171); a live one ends with the effect `k`. -/
def onReply (tag : Nat) (fits : Request → Bool) (k : Request → State → State) (s : State) : State :=
  match s.port.find tag with
  | none => s
  | some r =>
    if fits r then
      let s' := { s with port := s.port.finish tag }
      if r.live then k r s' else s'
    else s

/-! ### Requests to the writers -/

/-- R124: the report writer is asked for a write. Requests in SETUP and HALTED are not taken. -/
def ReportWriter.ask (r : ReportWriter) (working : Bool) : ReportWriter := { r with pending := r.pending || working }

/-- R124: a block asks for a report block write. -/
def State.askReport (s : State) : State := { s with report := s.report.ask s.working }

/-- R97: an answer reaches the outcome writer and waits there. -/
def OutcomeWriter.add (w : OutcomeWriter) (as : List WaitingAnswer) : OutcomeWriter :=
  { w with waiting := w.waiting ++ as }

/-- R113: the intake unit hands an answer to the outcome writer, and its phase becomes WRITING. -/
def State.answer (s : State) (a : Answer) : State :=
  { s with writer := s.writer.add [.intake a], intake := { s.intake with phase := .writing } }

/-- The answer of a refused docket (R118): reason written, notes not written. -/
def refusal (seq : Count) (kind : Nat) (rush : Bool) (r : Reason) (results : List (Nat × List Byte)) : Answer :=
  { seq, kind, rush, outcome := .refused, reason := some r, notes := none, results }

/-- The answer of a control docket written DONE, or DONE_NOTED where it has a note (R118). -/
def completion (seq : Count) (kind : Nat) (notes : BitVec 16) (results : List (Nat × List Byte)) : Answer :=
  { seq, kind, rush := false, outcome := if notes = 0 then .done else .doneNoted, reason := none, notes := some notes
    results }

/-! ### Register-level errors -/

/-- R151: a register-level error is recorded. -/
def State.error (s : State) (e : ErrorCode) : State := { s with sig := s.sig.error e }

/-! ### The completion map (R108) -/

/-- The flag of a docket's strip slot. -/
def flagOf (map : BitVec 64) (seq : Count) : Bool := map.getLsbD (seq.toNat % 64)

/-- The map with the flag of a docket's strip slot set. -/
def setFlag (map : BitVec 64) (seq : Count) : BitVec 64 := map ||| (1#64 <<< (seq.toNat % 64))

/-- The map with the flag of a docket's strip slot cleared. -/
def clearFlag (map : BitVec 64) (seq : Count) : BitVec 64 := map &&& ~~~(1#64 <<< (seq.toNat % 64))

/-- The retire check (R121): the retired count moves over answered dockets, oldest first, up to the taken count.
`fuel` is how far the taken count lies ahead. -/
def retireFrom (map : BitVec 64) : Nat → Count → Count
  | 0, retired => retired
  | fuel + 1, retired => if flagOf map retired then retireFrom map fuel (retired + 1) else retired

/-- The retired count after a retire check (R121). -/
def Intake.retireCheck (i : Intake) : Count := retireFrom i.map (ahead i.retired i.taken) i.retired

/-! ### The profile table -/

/-- Slot `i` of the table (R3). -/
def slotAt (slots : List Slot) (i : Nat) : Slot := slots.getD i .empty

/-- R3, R16: LOADING slots become EMPTY. -/
def dropLoading (slots : List Slot) : List Slot := slots.map fun x => if x = .loading then .empty else x

/-- R5, R50: the slot whose READY profile has the identity, with its profile. -/
def findProfile (slots : List Slot) (id : LensId) : Option (Nat × Profile) :=
  (slots.zipIdx.findSome? fun (x, i) =>
    match x with
    | .ready p => if p.ident = id then some (i, p) else none
    | _ => none)

/-! ### The work list and the engine -/

/-- The RUNNING entry (R84). -/
def runningEntry (work : List Entry) : Option Entry := work.find? (fun e => e.state == .running)

/-- A change of the RUNNING entry. -/
def mapRunning (f : Entry → Entry) (work : List Entry) : List Entry :=
  work.map fun e => if e.state = .running then f e else e

/-- What the outcome writer is handed for the RUNNING entry. -/
def runningAnswer (work : List Entry) (v : Verdict) : List WaitingAnswer :=
  (runningEntry work).toList.map fun e => .entry e.seq v

/-- R78, R79: the engine issues some of the band's requests not yet issued, in their order. -/
def State.issueMore (s : State) : State :=
  match s.engine with
  | .band cache tally (x :: rest) =>
    let issued := s.port.issueSome s.free Use.isBand (x :: rest)
    { s with engine := .band cache tally issued.2, port := issued.1, free := s.free + 1 }
  | _ => s

/-- R86: the engine enters OUTCOME and the RUNNING entry is handed to the outcome writer. -/
def State.toOutcome (s : State) (v : Verdict) : State :=
  { s with engine := .outcome, writer := s.writer.add (runningAnswer s.work v) }

/-- R80, R81, R86: the band in progress ends before it is done. What it has not issued is not issued, and
replies to its reads are discarded; the engine waits in DRAIN for writes already issued, or goes straight on to
OUTCOME. -/
def State.stopBand (s : State) (v : Verdict) : State :=
  let s := { s with port := s.port.ignore Use.isBandRead }
  if s.port.has Use.isBandWrite then { s with engine := .drain v } else s.toOutcome v

/-! ### Cancel (R101, R169) -/

/-- R101: the WAITING and PARKED entries of the list, in intake order, as CANCELLED answers. -/
def cancelAnswers (work : List Entry) : List WaitingAnswer :=
  (work.filter fun e => e.state != .running).map fun e => .entry e.seq .cancelled

/-- R169: everything below the boundary is answered. -/
def State.cancelSettled (s : State) (boundary : Count) : Bool :=
  s.intake.taken == boundary && s.intake.phase == .idle && s.work.isEmpty && s.engine == .free
    && s.writer.inHand.isNone && s.writer.waiting.isEmpty

/-- R169: at the moment everything below the boundary is answered, the report writer is asked for the completion's
write. -/
def State.cancelCheck (s : State) : State :=
  match s.win.cancel with
  | none => s
  | some c =>
    if c.stage = .working ∧ s.cancelSettled c.boundary then
      { s with win := { s.win with cancel := some { c with stage := .reportAsked } }, report := s.report.ask s.working }
    else s

/-! ### Resets -/

/-- R126: entry to HALTED, taken whole. -/
def State.enterHalted (s : State) : State :=
  { s with
    win := { s.win with state := .halted, cancel := none }
    sig := s.sig.error .exchangeFault
    intake := { s.intake with phase := .idle, install := false }
    slots := dropLoading s.slots
    writer := .reset
    report := { s.report with writing := false, pending := false }
    work := []
    engine := .free
    port := s.port.ignore fun _ => true }

/-- R171: SOFT_RESET, taken whole. -/
def State.softReset (s : State) : State :=
  { s with
    win := { Window.reset with xbase := s.win.xbase }
    sig := s.sig.softReset
    intake := .reset
    slots := dropLoading s.slots
    writer := .reset
    report := { s.report with writing := false, pending := false }
    work := []
    engine := .free
    port := s.port.ignore fun _ => true }

end Sys2Proof.Machine
end

