-- ==== Sys2Proof/Machine/Control.lean ====
section
/-! DEFINITION. Chapter 9 and the register side of chapter 7: resets, the parts of a CTRL write, POST, XBASE and the
writes that have no effect; the commands POWER_ON_RESET, SOFT_RESET, ACK, CLEAR_FAULTS, ERROR_CLEAR, IRQ_ENABLE_UPDATE,
CANCEL, MODE_RUN, MODE_REOPEN, POST_WRITE, XBASE_WRITE, OTHER_REGISTER_WRITE, CANCEL_COMPLETE. -/

namespace Sys2Proof.Machine

/-- POWER_ON_RESET (R172). The queue, the count of free values drawn and the request names are the model's own and go
on (log entry 20). -/
def execPowerOnReset (s : State) : Host.Outcome State Fault Refusal :=
  .next { State.reset with
    pending := s.pending, free := s.free, port := { reqs := [], nextTag := s.port.nextTag } }

/-- SOFT_RESET (R171). -/
def execSoftReset (s : State) : Host.Outcome State Fault Refusal := .next s.softReset

/-- ACK (R137). -/
def execAck (mask : BitVec 5) (s : State) : Host.Outcome State Fault Refusal :=
  .next { s with sig := { s.sig with flags := s.sig.flags.ack mask } }

/-- CLEAR_FAULTS (R149). -/
def execClearFaults (s : State) : Host.Outcome State Fault Refusal :=
  .next { s with sig := s.sig.clearFaults }

/-- ERROR_CLEAR (R152). -/
def execErrorClear (s : State) : Host.Outcome State Fault Refusal :=
  .next { s with sig := { s.sig with firstError := none } }

/-- IRQ_ENABLE_UPDATE (R136). -/
def execIrqEnableUpdate (update enable : Bool) (s : State) : Host.Outcome State Fault Refusal :=
  .next { s with sig := { s.sig with irqEnable := if update then enable else s.sig.irqEnable } }

/-- R101, R167: the acceptance of a cancel, taken whole. The boundary is POST, and the WAITING and PARKED entries are
handed to the outcome writer. -/
def acceptCancel (s : State) : State :=
  State.cancelCheck { s with
    win := { s.win with cancel := some { boundary := s.win.post, stage := .working } }
    writer := s.writer.add (cancelAnswers s.work) }

/-- R167: a CANCEL request. -/
def cancelRequest (s : State) : State :=
  if s.working then (if s.win.cancel.isSome then s else acceptCancel s) else s.error .cancelState

/-- CANCEL (R167). -/
def execCancel (s : State) : Host.Outcome State Fault Refusal := .next (cancelRequest s)

/-- MODE_RUN (R164): in SETUP with no setup read in progress, bytes 0 to 21 of the setup block are read at XBASE. -/
def execModeRun (s : State) : Host.Outcome State Fault Refusal :=
  .next (if s.win.state = .setup ∧ s.win.setupRead = false then
    { s with
      win := { s.win with setupRead := true }
      port := s.port.issueAll [(.setupBlock, .read s.win.xbase.toNat Config.setupReadBytes)] }
  else s.error .modeState)

/-- R166: the part is quiescent. -/
def State.quiescent (s : State) : Bool :=
  s.win.post == s.intake.taken && s.intake.taken == s.intake.retired && s.work.isEmpty && s.win.cancel.isNone
    && s.writer.inHand.isNone && s.writer.waiting.isEmpty && !s.report.writing && !s.report.pending

/-- MODE_REOPEN (R166). -/
def execModeReopen (s : State) : Host.Outcome State Fault Refusal :=
  .next (if s.win.state = .run ∧ s.quiescent then { s with win := { s.win with state := .setup, locked := none } }
  else s.error .reopenBusy)

/-- R109: whether a new POST value is accepted, measured forward from the retired count. -/
def State.postInRange (s : State) (new : Count) : Bool :=
  decide (ahead s.intake.retired s.intake.taken ≤ ahead s.intake.retired new ∧ ahead s.intake.retired new ≤ 64)

/-- R167: the cancel boundary after an accepted POST write, which lowers it where it lowers POST below it. -/
def lowerBoundary (retired new : Count) (c : Cancel) : Cancel :=
  if ahead retired new < ahead retired c.boundary then { c with boundary := new } else c

/-- R109, R141, R167: an accepted POST write, with the idle flush. -/
def acceptPost (new : Count) (s : State) : State :=
  State.cancelCheck { s with
    win := { s.win with post := new, cancel := s.win.cancel.map (lowerBoundary s.intake.retired new) }
    sig := s.sig.idleFlush (s.intake.retired == new) }

/-- POST_WRITE (R109). -/
def execPostWrite (value : BitVec 32) (s : State) : Host.Outcome State Fault Refusal :=
  let new : Count := value.setWidth 16
  .next (if s.working then (if s.postInRange new then acceptPost new s else s.error .postRange)
  else s.error .postState)

/-- XBASE_WRITE (R173). The state is tested before the alignment. -/
def execXbaseWrite (value : BitVec 32) (s : State) : Host.Outcome State Fault Refusal :=
  .next (if s.win.state = .setup ∧ s.win.setupRead = false then
    (if value.toNat % 4096 = 0 then { s with win := { s.win with xbase := value } } else s.error .xbaseAlign)
  else s.error .xbaseLocked)

/-- OTHER_REGISTER_WRITE (R128, R174): no effect, and no error. -/
def execOtherRegisterWrite (_offset _width : Nat) (_value : BitVec 32) (s : State) : Host.Outcome State Fault Refusal :=
  .next s

/-- CANCEL_COMPLETE (R169): the completion's report block write having been acknowledged, the cancelling flag is cleared
and CANCEL is set. -/
def execCancelComplete (s : State) : Host.Outcome State Fault Refusal :=
  .next (if s.win.cancel.map Cancel.stage = some .reported then
    { s with
      win := { s.win with cancel := none }
      sig := { s.sig with flags := { s.sig.flags with cancel := true } } }
  else s)

end Sys2Proof.Machine
end

