-- ==== Sys2Proof/Machine/Table.lean ====
section
/-! DEFINITION. Chapter 1: the checks of a profile image, and the install, drop and trim operations on the profile
table. -/

namespace Sys2Proof.Machine

/-- A failed check of an image, with the station and knot index it names (R6). -/
structure Violation where
  reason  : Reason
  station : Option Nat
  knot    : Option Nat
deriving DecidableEq, Repr

/-- A violation that names no station. -/
def plainViolation (r : Reason) : Violation := { reason := r, station := none, knot := none }

/-- A check that fails with a violation where its condition does not hold. -/
def require (c : Bool) (v : Violation) : Option Violation := if c then none else some v

/-- R1, R10: the identities a profile may hold. -/
def LensId.valid (id : LensId) : Bool := decide (1 ≤ id.model ∧ id.model ≤ 65534 ∧ id.ext ≤ 15)

/-- R2, R12: trims within their limits. -/
def Trims.inRange (t : Trims) : Bool :=
  within (-Config.centreLimit) Config.centreLimit t.x && within (-Config.centreLimit) Config.centreLimit t.y
    && within (-Config.scaleLimit) Config.scaleLimit t.scale

/-- R11: step 7's walk over `n` station records, the next being station `j` at `off`. -/
def walkImage (b : List Byte) : Nat → Nat → Nat → Option Violation
  | 0, _, off => require (decide (off = b.length)) (plainViolation .imageLength)
  | n + 1, j, off =>
    let next := off + 4 + 8 * fieldAt b (off + 2) 2
    if off + 4 ≤ b.length ∧ next ≤ b.length then walkImage b n (j + 1) next
    else some { reason := .imageLength, station := some j, knot := none }

/-- R14: the order check of a station's knots from knot `i` on, `prev` being the u of the knot before. -/
def orderViolation (j : Nat) : Nat → Option Nat → List Knot → Option Violation
  | _, _, [] => none
  | i, prev, k :: rest =>
    let ordered := match prev with
      | none => decide (k.u = 0)
      | some u => decide (u < k.u)
    if ordered && decide (k.u ≤ Config.uMax) then orderViolation j (i + 1) (some k.u) rest
    else some { reason := .knotOrder, station := some j, knot := some i }

/-- R2, R14: a knot's three scale deltas in range. -/
def Knot.inRange (k : Knot) : Bool :=
  within Config.deltaMin Config.deltaMax k.val.g && within Config.deltaMin Config.deltaMax k.val.r
    && within Config.deltaMin Config.deltaMax k.val.b

/-- R14: the value check of a station's knots from knot `i` on. -/
def valueViolation (j : Nat) : Nat → List Knot → Option Violation
  | _, [] => none
  | i, k :: rest =>
    if k.inRange then valueViolation j (i + 1) rest
    else some { reason := .valueRange, station := some j, knot := some i }

/-- R13, R14: the checks of station `j`, `prev` being the focal length of the station before. -/
def stationViolation (j : Nat) (prev : Option Nat) (s : Station) : Option Violation :=
  let ascending := match prev with
    | none => true
    | some f => decide (f < s.focal)
  (require (decide (1 ≤ s.focal) && ascending) { reason := .focalOrder, station := some j, knot := none }).or
    ((require (decide (2 ≤ s.knots.length ∧ s.knots.length ≤ 16))
        { reason := .badKnotCount, station := some j, knot := none }).or
      ((orderViolation j 0 none s.knots).or (valueViolation j 0 s.knots)))

/-- R13: step 9 over the stations from station `j` on. -/
def stationsViolation : Nat → Option Nat → List Station → Option Violation
  | _, _, [] => none
  | j, prev, s :: rest => (stationViolation j prev s).or (stationsViolation (j + 1) (some s.focal) rest)

/-- R10 to R14: steps 5 to 9 of an install, on the bytes of the image. The first failing check counts. -/
def imageViolation (b : List Byte) : Option Violation :=
  let p := imageProfile b
  (require (decide (imageLayout b = 1) && p.ident.valid) (plainViolation .badLayout)).or
    ((require (decide (1 ≤ imageStations b ∧ imageStations b ≤ 8)) (plainViolation .badStationCount)).or
      ((walkImage b (imageStations b) 0 16).or
        ((require p.trims.inRange (plainViolation .trimRange)).or (stationsViolation 0 none p.stations))))

/-- R15: whether a READY slot holds the identity. -/
def identityHeld (slots : List Slot) (id : LensId) : Bool :=
  slots.any fun x => match x with
    | .ready p => decide (p.ident = id)
    | _ => false

/-- R10 to R15: steps 5 to 10 of an install. The slot being installed is LOADING and is not compared. -/
def installViolation (slots : List Slot) (b : List Byte) : Option Violation :=
  (imageViolation b).or (require (!identityHeld slots (imageProfile b).ident) (plainViolation .duplicateLens))

/-- R7: the slot an INSTALL's slot field asks for. -/
def chooseSlot (slots : List Slot) (field : Nat) : Except Reason Nat :=
  if field < Config.slotCount then .ok field
  else if field = 15 then
    match slots.findIdx? (· = .empty) with
    | some i => .ok i
    | none => .error .noFreeSlot
  else .error .badSlot

/-- R6 to R8: steps 1 to 3 of an install. -/
def installCheck (slots : List Slot) (p : Params) (field addr length : Nat) : Except Reason Nat :=
  match chooseSlot slots field with
  | .error r => .error r
  | .ok i =>
    if length < Config.imageMin ∨ Config.imageMax < length then .error .imageLength
    else if inWindow p addr length then .ok i
    else .error .outOfWindow

/-- The profile of a READY slot named by a slot field 0..11 (R17, R18), or the reason it has none. -/
def readySlot (slots : List Slot) (field : Nat) : Except Reason Profile :=
  if field < Config.slotCount then
    match slotAt slots field with
    | .ready p => .ok p
    | _ => .error .slotEmpty
  else .error .badSlot

/-! ### Trims (R18 to R20) -/

/-- The trims held at their limits (R19, R20). -/
def Trims.held (t : Trims) : Trims :=
  { x := clampInt (-Config.centreLimit) Config.centreLimit t.x
    y := clampInt (-Config.centreLimit) Config.centreLimit t.y
    scale := clampInt (-Config.scaleLimit) Config.scaleLimit t.scale }

/-- The sums of a NUDGE (R19). -/
def Trims.plus (a b : Trims) : Trims := { x := a.x + b.x, y := a.y + b.y, scale := a.scale + b.scale }

/-- R18: a NUDGE's steps within their limit. -/
def Trims.nudgeable (t : Trims) : Bool :=
  within (-Config.nudgeLimit) Config.nudgeLimit t.x && within (-Config.nudgeLimit) Config.nudgeLimit t.y
    && within (-Config.nudgeLimit) Config.nudgeLimit t.scale

/-- R19, R20: a trim asked for becomes the slot's trims, held at their limits, with AT_LIMIT where one was held. -/
def applyTrims (asked : Trims) : Trims × BitVec 16 :=
  (asked.held, noteIf (!asked.inRange) .atLimit 0)

end Sys2Proof.Machine
end

