-- ==== Sys2Proof/Machine/Tap.lean ====
section
/-! DEFINITION. Chapter 2: the timebase, the lens tap, the identity tracker, the lens state log, the quiet condition,
and the lookup of a focal length; the commands TICK, ERA_YOUNG_CLEAR, SYNC, LENS_MESSAGE, QUIET_TIMER_EXPIRY. -/

namespace Sys2Proof.Machine

/-! ### Receiving (R24, R25) -/

/-- R24: the byte's data bits, least significant first. -/
def heardValue (b : HeardByte) : Byte := b.samples.extractLsb' 0 8

/-- R24: a byte whose stop bit is low is a framing error. -/
def framingError (b : HeardByte) : Bool := !b.samples.getLsbD 8

/-- R24: one event of the lens line at the tap's receiver, at timebase value `now`; with it the run it closes, if any.
Idle line counts toward the closing gap, and after a low stop bit lets the receiver look for a start bit again; a start
bit begins a byte, and after a gap a run; at a stop bit the byte joins the run with the timebase value. An event that
cannot follow is not heard (log entry 22). -/
def Receiver.hear (r : Receiver) (now : Stamp) : LineEvent → Receiver × Option Run
  | .idle bits =>
    if r.phase = .inByte then (r, none)
    else if r.idleBits + bits < Config.closingGap then
      ({ r with phase := .idle, idleBits := r.idleBits + bits }, none)
    else ({ phase := .idle, idleBits := Config.closingGap, run := none }, r.run)
  | .start =>
    if r.phase = .idle then
      ({ phase := .inByte, idleBits := 0
         run := if r.idleBits = Config.closingGap then some { bytes := [], crossedSync := false } else r.run }, none)
    else (r, none)
  | .stop samples =>
    if r.phase = .inByte then
      ({ phase := if samples.getLsbD 8 then .idle else .heldLow, idleBits := 0
         run := r.run.map fun x => { x with bytes := x.bytes ++ [{ samples, stopTime := now }] } }, none)
    else (r, none)

/-- R22: a SYNC pulse marks the run in progress. -/
def Receiver.mark (r : Receiver) : Receiver := { r with run := r.run.map fun x => { x with crossedSync := true } }

/-- An accepted message (R25). -/
structure Message where
  ident   : LensId
  kind    : Nat
  focal   : Nat
  seq     : Nat
  arrival : Stamp
deriving DecidableEq, Repr

/-- The fields of a run's bytes (R25, R135). -/
def messageOf (v : List Byte) (arrival : Stamp) : Message :=
  { ident := { model := fieldAt v 1 2, ext := fieldAt v 3 1 % 16 }, kind := fieldAt v 3 1 / 16, focal := fieldAt v 4 2
    seq := fieldAt v 6 1, arrival }

/-- The timebase value the tap recorded at the stop bit of the run's last byte (R24). -/
def arrivalOf (bytes : List HeardByte) : Stamp := (bytes.getLast?.map HeardByte.stopTime).getD 0

/-- R25: the checks of a closed run, in order; the accepted message, or none where the run is discarded. -/
def acceptRun (run : Run) : Option Message :=
  let v := run.bytes.map heardValue
  let m := messageOf v (arrivalOf run.bytes)
  if run.crossedSync then none
  else if run.bytes.any framingError then none
  else if v.length ≠ 8 then none
  else if v.getD 0 0 ≠ Config.marker then none
  else if v.sum ≠ 255 then none
  else if m.ident.model = 0 ∨ m.ident.model = 65535 then none
  else if m.kind = 1 ∧ m.focal = 0 then none
  else some m

/-- What the duplicate check compares of a message (R26). -/
def Message.key (m : Message) : MessageKey := { ident := m.ident, kind := m.kind, seq := m.seq }

/-! ### The lens state log (R35 to R38) -/

/-- R35: the stamp of a position report. -/
def Tap.stampOf (t : Tap) (arrival : Stamp) : Stamp := arrival - BitVec.ofNat 32 t.latency

/-- R35: an early report, whose stamp would fall before the start of the era. -/
def Tap.early (t : Tap) (arrival : Stamp) : Bool := t.eraYoung && decide (arrival.toNat < t.latency)

/-- R38: the newest sample is not earlier than the offered stamp. -/
def notLater (log : List Sample) (stamp : Stamp) : Bool :=
  match log.getLast? with
  | none => false
  | some x => !earlier x.stamp stamp

/-- R38: a sample appended; the oldest is removed from a full log. -/
def appendSample (log : List Sample) (x : Sample) : List Sample :=
  log.drop (log.length + 1 - Config.logDepth) ++ [x]

/-- R38: a sample offered to the log is appended, or refused and counted as dropped. -/
def Tap.offer (t : Tap) (arrival : Stamp) (focal : Nat) : Tap :=
  if t.early arrival || notLater t.log (t.stampOf arrival) then { t with dropped := satInc t.dropped }
  else { t with log := appendSample t.log { stamp := t.stampOf arrival, focal } }

/-! ### The identity tracker (R29 to R33) -/

/-- The four steps of the tracker (R29). -/
inductive TrackStep where
  | logReport | makeCandidate | confirm | replace
deriving DecidableEq, Repr

/-- R29: the step a position report takes, by its identity. -/
def Tap.trackStep (t : Tap) (id : LensId) : TrackStep :=
  if t.current = some id then .logReport
  else if t.candidate = none then .makeCandidate
  else if t.candidate = some id then .confirm
  else .replace

/-- R30: a report of the current identity discards any candidate, counting a glitch, and offers its sample. -/
def Tap.logReport (t : Tap) (m : Message) : Tap :=
  { t with candidate := none, glitches := if t.candidate = none then t.glitches else satInc t.glitches }.offer
    m.arrival m.focal

/-- R32: the confirmation of a change of identity, steps 1 to 3 and 5. -/
def Tap.confirm (t : Tap) (m : Message) : Tap :=
  { t with log := [], epoch := t.epoch + 1, current := some m.ident, candidate := none }.offer m.arrival m.focal

/-- R29 to R33: what a position report does to the tap. -/
def Tap.track (t : Tap) (m : Message) : Tap :=
  match t.trackStep m.ident with
  | .logReport => t.logReport m
  | .makeCandidate => { t with candidate := some m.ident }
  | .confirm => t.confirm m
  | .replace => { t with candidate := some m.ident, glitches := satInc t.glitches }

/-- R29 to R33: a position report at the tracker. A confirmation latches LENS_CHANGE and asks for a report block
write (R32). -/
def track (m : Message) (s : State) : State :=
  if s.tap.trackStep m.ident = .confirm then
    { s with tap := s.tap.track m, sig := s.sig.latch .lensChange, report := s.report.ask s.working }
  else { s with tap := s.tap.track m }

/-! ### The quiet condition (R39, R40) -/

/-- Whether the quiet timer has reached Q (R39). -/
def Tap.quietDue (t : Tap) : Bool := !t.quiet && decide (t.quietMs * 1000 ≤ t.quietTimer)

/-- R39: the quiet condition starts. -/
def startQuiet (s : State) : State :=
  { s with
    tap := { s.tap with quiet := true }
    sig := s.sig.conditionStart .quiet
    report := s.report.ask s.working }

/-- R25 step 1, R40: an accepted message restarts the quiet timer and ends the quiet condition if it stands. -/
def endQuiet (s : State) : State :=
  if s.tap.quiet then
    { s with
      tap := { s.tap with quietTimer := 0, quiet := false }
      sig := s.sig.conditionEnd .quiet
      report := s.report.ask s.working }
  else { s with tap := { s.tap with quietTimer := 0 } }

/-- R25 to R27: an accepted message, in the order of R25's steps. -/
def hearMessage (m : Message) (s : State) : State :=
  let s := endQuiet s
  if s.tap.last = some m.key then { s with tap := { s.tap with duplicates := satInc s.tap.duplicates } }
  else
    let s := { s with tap := { s.tap with last := some m.key } }
    if m.kind = 1 then track m s else s

/-- R25: a closed run is checked; a discarded run adds one to the dropped count. -/
def closeRun (run : Run) (s : State) : State :=
  match acceptRun run with
  | none => { s with tap := { s.tap with dropped := satInc s.tap.dropped } }
  | some m => hearMessage m s

/-- R24, R25: one event of the lens line. -/
def hearEvent (s : State) (e : LineEvent) : State :=
  let heard := s.tap.rx.hear s.tap.timebase e
  let s := { s with tap := { s.tap with rx := heard.1 } }
  match heard.2 with
  | none => s
  | some run => closeRun run s

/-! ### The lookup (R41 to R43) -/

/-- R41: what a lookup answers. `ident` and `focal` mean nothing for MISSING. -/
structure Lookup where
  status : LookupStatus
  focal  : Nat
  ident  : LensId
deriving DecidableEq, Repr

/-- R42: the status of a lookup that no row of the table covers, a free value as far as R42 leaves it open: not EXACT,
since no sample has the stamp, and BETWEEN only where there is a pair of samples to interpolate between, which one
sample alone is not (log entry 9). -/
def freeStatus (hasPair : Bool) (n : Nat) : LookupStatus :=
  match Config.freeStatus n with
  | .exact => .missing
  | .between => if hasPair then .between else .missing
  | .held => .held
  | .stale => .stale
  | .missing => .missing

/-- A focal length, 1..65535, where R43 has no pair of samples (log entry 10). -/
def freeFocal (n : Nat) : Nat := (Config.freeFocal n).val + 1

/-- A member of a list, which one of several being a free value (log entry 10). -/
def freeMember {α : Type} (n : Nat) : List α → Option α
  | [] => none
  | [x] => some x
  | x :: y :: rest => some ((x :: y :: rest).getD (Config.freeChoice n % (rest.length + 2)) x)

/-- R43: the focal length between two samples. -/
def interpolate (a b : Sample) (t : Stamp) : Nat :=
  ((a.focal : Int)
    + nearestAway (((b.focal : Int) - a.focal) * stampDiff a.stamp t) (stampDiff a.stamp b.stamp).toNat).toNat

/-- R43: the adjacent samples with the stamp between them. -/
def straddling (log : List Sample) (t : Stamp) : List (Sample × Sample) :=
  (log.zip log.tail).filter fun p => earlier p.1.stamp t && earlier t p.2.stamp

/-- R43: the focal length of a BETWEEN lookup. -/
def betweenFocal (log : List Sample) (n : Nat) (t : Stamp) : Nat :=
  match freeMember n (straddling log t) with
  | some (a, b) => interpolate a b t
  | none => freeFocal n

/-- R42, R43: the lookup of stamp `t`, its conditions in the order of R42's table. `n` is the free value's number: it
is used where no row of the table holds, and where several samples or pairs do for one (log entries 9 and 10). -/
def Tap.lookup (tap : Tap) (n : Nat) (t : Stamp) : Lookup :=
  match tap.current, tap.log.head?, tap.log.getLast? with
  | some id, some oldest, some newest =>
    if earlier t oldest.stamp then { status := .missing, focal := 0, ident := id }
    else
      match freeMember n (tap.log.filter (fun x => x.stamp = t)) with
      | some x => { status := .exact, focal := x.focal, ident := id }
      | none =>
        if earlier oldest.stamp t && earlier t newest.stamp then
          { status := .between, focal := betweenFocal tap.log n t, ident := id }
        else if earlier newest.stamp t then
          { status := if stampDiff newest.stamp t ≤ (tap.quietMs * 1000 : Nat) then .held else .stale
            focal := newest.focal, ident := id }
        else
          let status := freeStatus (!(straddling tap.log t).isEmpty) n
          { status, focal := if status = .between then betweenFocal tap.log n t else newest.focal, ident := id }
  | _, _, _ => { status := .missing, focal := 0, ident := { model := 0, ext := 0 } }

/-! ### The commands -/

/-- TICK (R21, R39): the timebase and the quiet timer advance by one. -/
def execTick (s : State) : Host.Outcome State Fault Refusal :=
  .next { s with tap := { s.tap with timebase := s.tap.timebase + 1, quietTimer := s.tap.quietTimer + 1 } }

/-- ERA_YOUNG_CLEAR (R21): the timebase having reached 2000 clears the era-young flag (log entry 6). -/
def execEraYoungClear (s : State) : Host.Outcome State Fault Refusal :=
  .next { s with tap := { s.tap with
    eraYoung := s.tap.eraYoung && decide (s.tap.timebase.toNat < Config.eraYoungEnd) } }

/-- SYNC (R22): a new era. A message being received is marked, and the era check will discard it, also where the pulse
comes together with the run's close and is taken first (R37; DEDUCED, log entry 34). -/
def execSync (s : State) : Host.Outcome State Fault Refusal :=
  .next { s with tap := { s.tap with timebase := 0, eraYoung := true, log := [], rx := s.tap.rx.mark } }

/-- LENS_MESSAGE (R24, R25): the lens line is heard up to and with the close of a run, which is checked whole. -/
def execLensMessage (line : List LineEvent) (s : State) : Host.Outcome State Fault Refusal :=
  .next (line.foldl hearEvent s)

/-- QUIET_TIMER_EXPIRY (R39): the quiet timer having reached Q starts the quiet condition where it is absent. -/
def execQuietTimerExpiry (s : State) : Host.Outcome State Fault Refusal :=
  .next (if s.tap.quietDue then startQuiet s else s)

end Sys2Proof.Machine
end

