-- ==== Sys2Proof/Machine/Resolver.lean ====
section
/-! DEFINITION. Chapter 3: the resolution of a FRAME docket into a frozen curve, a centre and a work-list entry, or
its refusal; the intake checks of chapter 6 (R114 to R116). -/

namespace Sys2Proof.Machine

/-- The value for a channel. -/
def Rgb.get {α : Type} (x : Rgb α) : Channel → α
  | .red => x.r | .green => x.g | .blue => x.b

/-- One thing made for each channel. -/
def Rgb.tabulate {α : Type} (f : Channel → α) : Rgb α := { r := f .red, g := f .green, b := f .blue }

/-! ### Geometry (R64, R65) and the intake checks (R114 to R116) -/

/-- R64: the output frame's width, height and number of bands. -/
def Geometry.wo (g : Geometry) : Nat := g.w / g.k
def Geometry.ho (g : Geometry) : Nat := g.h / g.k
def Geometry.bands (g : Geometry) : Nat := (g.ho + 31) / 32

/-- R65: the length of an input plane's and of an output plane's extent. -/
def Geometry.inSize (g : Geometry) : Nat := g.inPitch * (g.h - 1) + 2 * g.w
def Geometry.outSize (g : Geometry) : Nat := g.outPitch * (g.ho - 1) + 2 * g.wo

/-- The three members of an `Rgb`. -/
def Rgb.toList {α : Type} (x : Rgb α) : List α := [x.r, x.g, x.b]

/-- R116: two extents share a byte. -/
def overlaps (a aSize b bSize : Nat) : Bool := decide (a < b + bSize ∧ b < a + aSize)

/-- Checks 2 to 9 of a FRAME docket, in order, each with its reason (R114 to R116). -/
def frameChecks (p : Params) (f : FrameFields) : List (Bool × Reason) :=
  let g := f.geo
  [ (decide (f.source ≤ 1), .badSource),
    (decide (g.w % 16 = 0 ∧ 256 ≤ g.w ∧ g.w ≤ 8192 ∧ g.h % 16 = 0 ∧ 256 ≤ g.h ∧ g.h ≤ 6144
      ∧ g.ox + g.w ≤ p.wf ∧ g.oy + g.h ≤ p.hf), .badGeometry),
    (decide (g.k = 1 ∨ g.k = 2 ∨ g.k = 4), .badStep),
    (decide (g.inPitch % 64 = 0 ∧ 2 * g.w ≤ g.inPitch ∧ g.outPitch % 64 = 0 ∧ 2 * g.wo ≤ g.outPitch), .badPitch),
    ((g.inAddr.toList ++ g.outAddr.toList).all (fun a => a % 64 = 0), .badAlign),
    (decide (f.wl ≠ 0), .badWhite),
    (g.inAddr.toList.all (inWindow p · g.inSize) && g.outAddr.toList.all (inWindow p · g.outSize), .outOfWindow),
    (g.outAddr.toList.all (fun o => g.inAddr.toList.all (fun i => !overlaps o g.outSize i g.inSize)),
      .planeOverlap) ]

/-- The reason of the first check that fails. -/
def firstFailure : List (Bool × Reason) → Option Reason
  | [] => none
  | (ok, r) :: rest => if ok then firstFailure rest else some r

/-! ### The frame curve (R52 to R55) -/

/-- R52: a station's value for a channel at u. -/
def evalKnots (c : Channel) : List Knot → Nat → Int
  | [], _ => 0
  | [k], _ => k.val.get c
  | k0 :: k1 :: rest, u =>
    if u < k1.u then
      k0.val.get c + nearestAway ((k1.val.get c - k0.val.get c) * ((u : Int) - k0.u)) (k1.u - k0.u)
    else evalKnots c (k1 :: rest) u

/-- R53: which stations are used, with what weight, and whether the focal length was clamped. -/
structure StationChoice where
  lower   : Nat
  upper   : Nat
  weight  : Nat
  clamped : Bool
deriving DecidableEq, Repr

/-- R53, R54: the choice among stations `j`, `j+1`, … for an F that is not below station `j`'s focal length. -/
def chooseFrom (f : Nat) : Nat → List Station → StationChoice
  | j, [] => { lower := j, upper := j, weight := 0, clamped := false }
  | j, [s] => { lower := j, upper := j, weight := 0, clamped := decide (s.focal < f) }
  | j, s0 :: s1 :: rest =>
    if f = s0.focal then { lower := j, upper := j, weight := 0, clamped := false }
    else if f < s1.focal then
      { lower := j, upper := j + 1, weight := 256 * (f - s0.focal) / (s1.focal - s0.focal), clamped := false }
    else chooseFrom f (j + 1) (s1 :: rest)

/-- R53: the stations used for focal length F. -/
def chooseStations (f : Nat) (stations : List Station) : StationChoice :=
  match stations with
  | s0 :: s1 :: rest =>
    if f < s0.focal then { lower := 0, upper := 0, weight := 0, clamped := true }
    else chooseFrom f 0 (s0 :: s1 :: rest)
  | _ => { lower := 0, upper := 0, weight := 0, clamped := false }

/-- A station's value (R52) by its index in the slot. -/
def stationValue (stations : List Station) (j : Nat) (c : Channel) (u : Nat) : Int :=
  evalKnots c ((stations[j]?.map Station.knots).getD []) u

/-- R53, R54: the selected or blended value of a channel at u. -/
def blended (stations : List Station) (ch : StationChoice) (c : Channel) (u : Nat) : Int :=
  let a := stationValue stations ch.lower c u
  if ch.lower = ch.upper then a
  else a + nearestAway ((stationValue stations ch.upper c u - a) * ch.weight) 256

/-- R55: the sums with the scale trim at the 65 curve points u = 128·i, before the clamp. -/
def curveSums (p : Profile) (ch : StationChoice) (c : Channel) : List Int :=
  (List.range 65).map fun i => blended p.stations ch c (128 * i) + p.trims.scale

/-- R55: the frame curve. -/
def frameCurve (p : Profile) (ch : StationChoice) : Rgb (List Int) :=
  Rgb.tabulate fun c => (curveSums p ch c).map (clampInt Config.deltaMin Config.deltaMax)

/-- R55: whether a sum was clamped. -/
def curveSaturated (p : Profile) (ch : StationChoice) : Bool :=
  [Channel.green, .red, .blue].any fun c => (curveSums p ch c).any fun x => !within Config.deltaMin Config.deltaMax x

/-- R51: the curve of a pass-through frame. -/
def zeroCurve : Rgb (List Int) := Rgb.tabulate fun _ => List.replicate 65 0

/-! ### Choosing the identity, the focal length and the profile (R46 to R50) -/

/-- Where steps 1 to 3 of a resolution lead (R45): a refusal; pass-through, with the identity and focal length kept for
the result fields; or correction by a slot's profile. The notes gathered come along. -/
inductive LensChoice where
  | refuse (r : Reason)
  | passThrough (ident : Option LensId) (focal : Nat) (notes : BitVec 16)
  | correct (ident : LensId) (focal : Nat) (slot : Nat) (p : Profile) (notes : BitVec 16)
deriving DecidableEq, Repr

/-- R50: step 3, the search for a profile. -/
def searchProfile (s : State) (id : LensId) (focal : Nat) (notes : BitVec 16) : LensChoice :=
  match findProfile s.slots id with
  | some (i, p) => .correct id focal i p notes
  | none =>
    match s.sig.missing with
    | .refuse => .refuse .noProfile
    | .pass => .passThrough (some id) focal (addNote (addNote notes .noProfile) .uncorrected)

/-- R47 to R49: step 2 for focal source TAP. -/
def chooseByTap (s : State) (t : Stamp) : LensChoice :=
  let a := s.tap.lookup s.free t
  match a.status with
  | .exact => searchProfile s a.ident a.focal 0
  | .between => searchProfile s a.ident a.focal 0
  | .held => searchProfile s a.ident a.focal (addNote 0 .lensHeld)
  | .stale =>
    match s.sig.stale with
    | .hold => searchProfile s a.ident a.focal (addNote 0 .lensStale)
    | .pass => .passThrough (some a.ident) a.focal (addNote (addNote 0 .lensStale) .uncorrected)
  | .missing =>
    match s.sig.missing with
    | .refuse => .refuse .noLensData
    | .pass => .passThrough none 0 (addNote (addNote 0 .noLensData) .uncorrected)

/-- R46: steps 1 and 2 for focal source GIVEN. -/
def chooseByGiven (s : State) (f : FrameFields) : LensChoice :=
  if !f.given.valid || f.givenFocal == 0 then .refuse .badFocal
  else searchProfile s f.given f.givenFocal 0

/-- R45: steps 1 to 3. -/
def chooseLens (s : State) (f : FrameFields) : LensChoice :=
  if f.source = 1 then chooseByGiven s f else chooseByTap s f.stamp

/-! ### The entry (R51, R55 to R60) -/

/-- R57: the edge policy of its field. -/
def edgePolicy (field : Nat) : EdgePolicy := if field = 0 then .edge else .fill

/-- R57: the fill values as the entry holds them. -/
def frozenFill (f : FrameFields) : Rgb Nat :=
  match edgePolicy f.edgeField with
  | .edge => f.fill
  | .fill => { r := min f.fill.r f.wl, g := min f.fill.g f.wl, b := min f.fill.b f.wl }

/-- R57: whether a fill value was clamped. -/
def fillClamped (f : FrameFields) : Bool := decide (frozenFill f ≠ f.fill)

/-- R51, R56: the sensor midpoint moved by centre trims, in sixteenths. -/
def centre (size : Nat) (trim : Int) : Int := 8 * ((size : Int) - 1) + trim

/-- R60: the entry of a frame, with the parts that depend on whether it is corrected. -/
def makeEntry (seq : Count) (f : FrameFields) (curve : Rgb (List Int)) (cx cy : Int) (notes : BitVec 16)
    (result : ResultFields) : Entry :=
  { seq, rush := f.rush, curve, cx, cy, geo := f.geo, wl := f.wl, edge := edgePolicy f.edgeField, fill := frozenFill f
    state := .waiting, nextBand := 0, notes := noteIf (fillClamped f) .fillClamped notes, result, border := 0 }

/-- R51, R59: a pass-through frame's entry. -/
def passEntry (p : Params) (seq : Count) (f : FrameFields) (ident : Option LensId) (focal : Nat)
    (notes : BitVec 16) : Entry :=
  makeEntry seq f zeroCurve (centre p.wf 0) (centre p.hf 0) notes
    { ident, focal, slot := none, stations := none, weight := 0 }

/-- R52 to R56, R59: a corrected frame's entry. -/
def correctedEntry (p : Params) (seq : Count) (f : FrameFields) (ident : LensId) (focal slot : Nat) (pr : Profile)
    (notes : BitVec 16) : Entry :=
  let ch := chooseStations focal pr.stations
  makeEntry seq f (frameCurve pr ch) (centre p.wf pr.trims.x) (centre p.hf pr.trims.y)
    (noteIf (curveSaturated pr ch) .curveSaturated (noteIf ch.clamped .focalClamped notes))
    { ident := some ident, focal, slot := some slot, stations := some (ch.lower, ch.upper), weight := ch.weight }

/-- R45: a resolution's product, an entry or a refusal. -/
def resolution (s : State) (seq : Count) (f : FrameFields) : Except Reason Entry :=
  match chooseLens s f with
  | .refuse r => .error r
  | .passThrough ident focal notes => .ok (passEntry s.params seq f ident focal notes)
  | .correct ident focal slot p notes => .ok (correctedEntry s.params seq f ident focal slot p notes)

/-- R44, R60, R62, R63: a resolution, taken whole. An entry made during a cancel is handed on as CANCELLED at once
(R103). The free value's number advances where the tap was asked. -/
def resolve (seq : Count) (f : FrameFields) (s : State) : State :=
  let used := if f.source = 1 then s.free else s.free + 1
  match resolution s seq f with
  | .error r => { s.answer (refusal seq 1 f.rush r []) with free := used }
  | .ok e =>
    { s with
      work := s.work ++ [e]
      intake := { s.intake with phase := .idle }
      writer := if s.win.cancel.isSome then s.writer.add [.entry seq .cancelled] else s.writer
      free := used }

end Sys2Proof.Machine
end

