-- ==== Sys2Proof/Machine/Remap.lean ====
section
/-! DEFINITION. Chapter 4: where an output pixel looks, its sampling and output value, the rows a band needs, the band's
output rows and border tally. -/

namespace Sys2Proof.Machine

/-! ### Where an output pixel looks (R66 to R70) -/

/-- R66: the output pixel's position on the full sensor along one axis, in sixteenths. -/
def sensorPos (k origin o : Nat) : Int := 16 * k * o + 8 * ((k : Int) - 1) + 16 * origin

/-- R67: the squared normalising radius. -/
def radiusSq (p : Params) : Nat := 64 * (p.wf ^ 2 + p.hf ^ 2)

/-- R67: the normalised squared radius of an offset. -/
def normRadius (p : Params) (dx dy : Int) : Nat :=
  min Config.uMax ((dx.natAbs ^ 2 + dy.natAbs ^ 2) * 4096 / radiusSq p)

/-- R68: a channel's delta, read from its curve at u. -/
def deltaAt (curve : List Int) (u : Nat) : Int :=
  let i := u / 128
  if i = 64 then curve.getD 64 0
  else curve.getD i 0 + nearestAway ((curve.getD (i + 1) 0 - curve.getD i 0) * ((u % 128 : Nat) : Int)) 128

/-- R69: an offset scaled by 65536 + d. -/
def scaled (offset d : Int) : Int := nearestAway (offset * (65536 + d)) 65536

/-- R66 to R70: the source position of a channel of an output pixel, in sixteenths from the input frame's first
sample. -/
def sourcePos (e : Entry) (p : Params) (c : Channel) (xo yo : Nat) : Int × Int :=
  let dx := sensorPos e.geo.k e.geo.ox xo - e.cx
  let dy := sensorPos e.geo.k e.geo.oy yo - e.cy
  let d := deltaAt (e.curve.get c) (normRadius p dx dy)
  (e.cx + scaled dx d - 16 * e.geo.ox, e.cy + scaled dy d - 16 * e.geo.oy)

/-! ### The edge and sampling (R71 to R75) -/

/-- R71: a source position inside the input frame. -/
def inside (g : Geometry) (q : Int × Int) : Bool :=
  within 0 (16 * ((g.w : Int) - 1)) q.1 && within 0 (16 * ((g.h : Int) - 1)) q.2

/-- R72: whether a channel is sampled from its input plane. -/
def sampled (e : Entry) (q : Int × Int) : Bool := inside e.geo q || e.edge == .edge

/-- R74: a neighbour index clamped to 0..n−1. -/
def clampIndex (n : Nat) (i : Int) : Nat := (clampInt 0 ((n : Int) - 1) i).toNat

/-- R74: the bilinear sample at a source position, `input x y` being the plane's sample. -/
def bilinear (g : Geometry) (input : Nat → Nat → Nat) (q : Int × Int) : Nat :=
  let ix := q.1 / 16
  let iy := q.2 / 16
  let fx := (q.1 % 16).toNat
  let fy := (q.2 % 16).toNat
  let at' := fun (i j : Int) => input (clampIndex g.w i) (clampIndex g.h j)
  ((16 - fx) * (16 - fy) * at' ix iy + fx * (16 - fy) * at' (ix + 1) iy + (16 - fx) * fy * at' ix (iy + 1)
    + fx * fy * at' (ix + 1) (iy + 1) + 128) / 256

/-- R72, R75: the output sample of a channel. -/
def outSample (e : Entry) (p : Params) (c : Channel) (input : Nat → Nat → Nat) (xo yo : Nat) : Nat :=
  let q := sourcePos e p c xo yo
  if sampled e q then min (bilinear e.geo input q) e.wl else e.fill.get c

/-- R73: a border pixel, one of whose channels is outside. -/
def borderPixel (e : Entry) (p : Params) (xo yo : Nat) : Bool :=
  [Channel.red, .green, .blue].any fun c => !inside e.geo (sourcePos e p c xo yo)

/-! ### Bands (R64, R73, R78, R79) -/

/-- R64: the output rows of a band. -/
def bandRows (g : Geometry) (b : Nat) : List Nat :=
  (List.range (min Config.bandRows (g.ho - 32 * b))).map (32 * b + ·)

/-- The pixels of a band, row by row. -/
def bandPixels (g : Geometry) (b : Nat) : List (Nat × Nat) :=
  (bandRows g b).flatMap fun yo => (List.range g.wo).map fun xo => (xo, yo)

/-- R73: a band's border tally. -/
def bandTally (e : Entry) (p : Params) (b : Nat) : Nat :=
  (bandPixels e.geo b).countP fun xy => borderPixel e p xy.1 xy.2

/-- R74, R78: the input rows of the clamped neighbours of a channel of an output pixel; none where it is outside under
FILL. -/
def neighbourRows (e : Entry) (p : Params) (c : Channel) (xo yo : Nat) : List Nat :=
  let q := sourcePos e p c xo yo
  if sampled e q then [clampIndex e.geo.h (q.2 / 16), clampIndex e.geo.h (q.2 / 16 + 1)] else []

/-- All the neighbour rows of a channel in a band. -/
def usedRows (e : Entry) (p : Params) (c : Channel) (b : Nat) : List Nat :=
  (bandPixels e.geo b).flatMap fun xy => neighbourRows e p c xy.1 xy.2

/-- R78: the input rows of a channel a band needs, from the smallest to the largest. -/
def neededRows (e : Entry) (p : Params) (c : Channel) (b : Nat) : List Nat :=
  match (usedRows e p c b).min?, (usedRows e p c b).max? with
  | some lo, some hi => (List.range (hi + 1 - lo)).map (lo + ·)
  | _, _ => []

/-- R78: the reads of a band, each needed row of each channel once and whole (log entry 13). -/
def bandReads (e : Entry) (p : Params) (b : Nat) : List (Use × Access) :=
  [Channel.red, .green, .blue].flatMap fun c =>
    (neededRows e p c b).map fun r =>
      (.bandRead c r, .read (e.geo.inAddr.get c + e.geo.inPitch * r) (2 * e.geo.w))

/-- R65: the samples of a row's bytes. -/
def rowSamples : List Byte → List Nat
  | lo :: hi :: rest => (lo.toNat + 256 * hi.toNat) :: rowSamples rest
  | _ => []

/-- The band cache as an input plane (R78). -/
def cachedSample (cache : List CachedRow) (c : Channel) (x y : Nat) : Nat :=
  match cache.find? (fun r => r.channel == c && r.row == y) with
  | some r => r.samples.getD x 0
  | none => 0

/-- R79: the bytes of one output row of a channel. -/
def outRow (e : Entry) (p : Params) (cache : List CachedRow) (c : Channel) (yo : Nat) : List Byte :=
  (List.range e.geo.wo).flatMap fun xo => leBytes 2 (outSample e p c (cachedSample cache c) xo yo)

/-- R65, R79: the output writes of a band: row by row upward, red, green, blue within a row. -/
def bandWrites (e : Entry) (p : Params) (cache : List CachedRow) (b : Nat) : List (Use × Access) :=
  (bandRows e.geo b).flatMap fun yo =>
    [Channel.red, .green, .blue].map fun c =>
      (.bandWrite c yo, .write [(e.geo.outAddr.get c + e.geo.outPitch * yo, outRow e p cache c yo)])

end Sys2Proof.Machine
end

