-- ==== Sys2Proof/Machine/Engine.lean ====
section
/-! DEFINITION. Chapter 5 and section 4.5: picks, bands, parking, failures and draining; the commands PICK,
BAND_READ_RETURN, BAND_WRITE_ACK, BAND_BUS_ERROR, DRAIN_END. -/

namespace Sys2Proof.Machine

/-! ### Starting and computing a band (R78, R79, R88, R93) -/

/-- R79: once every read of the band has returned, its samples and tally are computed and its output writes begin to
be issued. -/
def computeBand (s : State) : State :=
  match runningEntry s.work, s.engine with
  | some e, .band cache _ _ =>
    State.issueMore { s with
      engine := .band cache (bandTally e s.params e.nextBand) (bandWrites e s.params cache e.nextBand) }
  | _, _ => s

/-- R93: the WARM note for a band run while the warning condition holds. -/
def warmRunning (warning : Bool) (work : List Entry) : List Entry :=
  mapRunning (fun e => { e with notes := noteIf warning .warm e.notes }) work

/-- R78, R93: the band named by the RUNNING entry's next band index starts: its reads begin to be issued, and it
takes WARM where the warning condition holds. A band that needs no input row is computed at once. -/
def startBand (s : State) : State :=
  match runningEntry s.work with
  | none => s
  | some e =>
    let reads := bandReads e s.params e.nextBand
    let s := { s with engine := .band [] 0 reads, work := warmRunning s.thermal.warning s.work }
    if reads.isEmpty then computeBand s else s.issueMore

/-- The first entry that satisfies `want` becomes RUNNING. -/
def runFirst (want : Entry → Bool) : List Entry → List Entry
  | [] => []
  | e :: rest => if want e then { e with state := .running } :: rest else e :: runFirst want rest

/-- R88: the entries a pick chooses from, in their order. -/
def isWaitingRush (e : Entry) : Bool := e.state == .waiting && e.rush
def isParked (e : Entry) : Bool := e.state == .parked
def isWaitingBurst (e : Entry) : Bool := e.state == .waiting && !e.rush

/-- R88: the work list after a pick: the oldest WAITING RUSH entry, else the PARKED entry, else the oldest WAITING
BURST entry is RUNNING. -/
def pickFrom (work : List Entry) : List Entry :=
  if work.any isWaitingRush then runFirst isWaitingRush work
  else if work.any isParked then runFirst isParked work
  else runFirst isWaitingBurst work

/-- R87: whether the scheduler makes a pick. -/
def State.canPick (s : State) : Bool :=
  s.engine == .free && s.win.state == .run && s.win.cancel.isNone && s.work.any (fun e => e.state != .running)

/-- R87, R88: a pick, taken whole with the start of the picked entry's band. -/
def State.pick (s : State) : State :=
  if s.canPick then startBand { s with work := pickFrom s.work } else s

/-! ### A band's end (R89 to R91, R99) -/

/-- R73, R84, R89: the RUNNING entry at its band's done: next band index and border count advance, BORDER where the
count is above 0. -/
def bandCounted (tally : Nat) (e : Entry) : Entry :=
  { e with
    nextBand := e.nextBand + 1
    border := e.border + tally
    notes := noteIf (decide (0 < e.border + tally)) .border e.notes }

/-- R90: parking a BURST entry, with the pick that follows. -/
def State.park (s : State) : State :=
  State.pick { s with
    work := mapRunning (fun e => { e with state := .parked, notes := addNote e.notes .parked }) s.work
    engine := .free }

/-- R89: a band is done, taken whole with the decision at its boundary. -/
def bandDone (tally : Nat) (s : State) : State :=
  let s := { s with work := mapRunning (bandCounted tally) s.work }
  match runningEntry s.work with
  | none => s
  | some e =>
    if s.win.cancel.isSome then s.toOutcome .cancelled
    else if e.nextBand = e.geo.bands then s.toOutcome .finished
    else if !e.rush && s.work.any isWaitingRush then s.park
    else startBand s

/-- R80, R99: a bus error on a band request. In BAND it fails the band, latches MEMORY, and the frame is to be written
ABANDONED; the end of a write that DRAIN waits for changes nothing further. -/
def bandFailed (s : State) : State :=
  match s.engine with
  | .band _ _ _ => { s with sig := s.sig.latch .memory }.stopBand (.abandoned .memoryFault)
  | _ => s

/-! ### The commands -/

/-- PICK (R88). -/
def execPick (s : State) : Host.Outcome State Fault Refusal := .next s.pick

/-- Whether a request is a band read of so many bytes. -/
def isRowRead (length : Nat) (r : Request) : Bool :=
  r.use.isBandRead && r.access.readLength == some length

/-- R78: a row into the band cache. -/
def cacheRow (use : Use) (bytes : List Byte) (cache : List CachedRow) : List CachedRow :=
  match use with
  | .bandRead c row => cache ++ [{ channel := c, row, samples := rowSamples bytes }]
  | _ => cache

/-- What follows a reply or an acknowledgement of the band in progress. -/
def State.bandMoves (s : State) (kind : Use → Bool) (rest : List (Use × Access)) (finished : State → State) : State :=
  s.proceed kind rest State.issueMore finished

/-- R78, R79: a band's read returns into the band cache; once all have returned the band is computed. -/
def rowReturned (bytes : List Byte) (r : Request) (s : State) : State :=
  match s.engine with
  | .band cache tally rest =>
    State.bandMoves { s with engine := .band (cacheRow r.use bytes cache) tally rest } Use.isBandRead rest computeBand
  | _ => s

/-- BAND_READ_RETURN (R78). -/
def execBandReadReturn (tag : Nat) (bytes : List Byte) (s : State) : Host.Outcome State Fault Refusal :=
  .next (onReply tag (isRowRead bytes.length) (rowReturned bytes) s)

/-- R79: the acknowledgement of a band's output write; the last one makes the band done. -/
def writeAcked (_ : Request) (s : State) : State :=
  match s.engine with
  | .band _ tally rest => s.bandMoves Use.isBandWrite rest (bandDone tally)
  | _ => s

/-- BAND_WRITE_ACK (R79). -/
def execBandWriteAck (tag : Nat) (s : State) : Host.Outcome State Fault Refusal :=
  .next (onReply tag (fun r => r.use.isBandWrite) writeAcked s)

/-- BAND_BUS_ERROR (R80, R99). -/
def execBandBusError (tag : Nat) (s : State) : Host.Outcome State Fault Refusal :=
  .next (onReply tag (fun r => r.use.isBandRead || r.use.isBandWrite) (fun _ => bandFailed) s)

/-- R86: DRAIN ends when no write of the band is outstanding. -/
def drainEnd (s : State) : State :=
  match s.engine with
  | .drain v => if s.port.has Use.isBandWrite then s else s.toOutcome v
  | _ => s

/-- DRAIN_END (R86). -/
def execDrainEnd (s : State) : Host.Outcome State Fault Refusal := .next (drainEnd s)

end Sys2Proof.Machine
end

