-- ==== Sys2Proof/Machine/Intake.lean ====
section
/-! DEFINITION. Chapter 6 intake and the dockets of chapters 1, 3 and 7: taking, checking and executing dockets, marking
them in a cancel; the commands TAKE_DOCKET, FRAME_DOCKET, RESOLVE_FRAME, INSTALL_DOCKET, INSTALL_VALIDATION,
IMAGE_READ_FAULT, DROP_DOCKET, TRIM_NUDGE, TRIM_SET, BAD_TRIM_MODE, OPTIONS_DOCKET, BAD_KIND_DOCKET, MARK_DOCKET. -/

namespace Sys2Proof.Machine

/-! ### Taking (R112) and marking (R168) -/

/-- R112: whether the intake unit takes a docket. -/
def State.canTake (s : State) : Bool :=
  s.working && s.intake.phase == .idle && !s.intake.install && s.win.cancel.isNone && s.intake.taken != s.win.post

/-- R112, R168: the taken count advances past docket n and the flag of its slot is cleared. -/
def Intake.advance (i : Intake) (phase : IntakePhase) : Intake :=
  { i with taken := i.taken + 1, map := clearFlag i.map i.taken, phase }

/-- TAKE_DOCKET (R112). -/
def execTakeDocket (s : State) : Host.Outcome State Fault Refusal :=
  .next (if s.canTake then
    { s with
      intake := s.intake.advance (.reading s.intake.taken)
      port := s.port.issueAll
        [(.docket, .read (docketAddr s.win.xbase s.intake.taken) Config.docketReadBytes)] }
  else s)

/-- R168: whether the intake unit marks a docket. -/
def State.canMark (s : State) : Bool :=
  s.working && s.intake.phase == .idle && (match s.win.cancel with
    | some c => s.intake.taken != c.boundary
    | none => false)

/-- R118, R168: the answer of a docket marked by a cancel, the outcome byte alone. The docket is not read, and the kind
0 that its update carries (R138) is the model's (DESIGN CHOICE, log entry 35). -/
def markedAnswer (seq : Count) : Answer :=
  { seq, kind := 0, rush := false, outcome := .cancelled, reason := none, notes := none, results := [] }

/-- MARK_DOCKET (R168). -/
def execMarkDocket (s : State) : Host.Outcome State Fault Refusal :=
  .next (if s.canMark then
    { s with
      intake := s.intake.advance .writing
      writer := s.writer.add [.intake (markedAnswer s.intake.taken)] }
  else s)

/-! ### A docket's read returns (R113) -/

/-- The live read of a taken docket returns with bytes of this row's kind; `k` is handed the docket's sequence
number. Bytes of another kind or length are not this row's event. -/
def docketReturned (tag : Nat) (bytes : List Byte) (thisRow : Bool) (k : Count → State → State) (s : State) : State :=
  onReply tag (fun r => r.use == .docket && r.access.readLength == some bytes.length && thisRow)
    (fun _ s => match s.intake.phase with
      | .reading seq => k seq s
      | _ => s) s

/-- R114 to R117: checks 2 to 9 of a FRAME docket; then it is resolved at once, or waits in PLACE, or is refused. -/
def frameReturned (f : FrameFields) (seq : Count) (s : State) : State :=
  match firstFailure (frameChecks s.params f) with
  | some r => s.answer (refusal seq 1 f.rush r [])
  | none =>
    if s.work.length < Config.workDepth then resolve seq f s
    else { s with intake := { s.intake with phase := .place seq f } }

/-- FRAME_DOCKET (R114). -/
def execFrameDocket (tag : Nat) (bytes : List Byte) (s : State) : Host.Outcome State Fault Refusal :=
  .next (docketReturned tag bytes (docketKind bytes == 1) (frameReturned (frameFields bytes)) s)

/-- R117: a frame in PLACE is resolved once the list has a place. -/
def resolvePlaced (s : State) : State :=
  match s.intake.phase with
  | .place seq f => if s.working ∧ s.work.length < Config.workDepth then resolve seq f s else s
  | _ => s

/-- RESOLVE_FRAME (R44, R117). -/
def execResolveFrame (s : State) : Host.Outcome State Fault Refusal := .next (resolvePlaced s)

/-- BAD_KIND_DOCKET (R113): a docket of unknown kind is refused. -/
def execBadKindDocket (tag : Nat) (bytes : List Byte) (s : State) : Host.Outcome State Fault Refusal :=
  .next (docketReturned tag bytes (docketKind bytes == 0 || decide (5 < docketKind bytes))
    (fun seq s => s.answer (refusal seq (docketKind bytes) false .badKind [])) s)

/-! ### INSTALL (R6 to R16) -/

/-- R9: the lengths of the reads an extent of `left` bytes is read by, each the free value `size` gives for what is
left, held between 1 and that (DESIGN CHOICE, log entry 14). -/
def cutExtent (size : Nat → Nat) : (fuel left : Nat) → List Nat
  | 0, _ => []
  | fuel + 1, left =>
    if left = 0 then [] else
      let k := min left (max 1 (size left))
      k :: cutExtent size fuel (left - k)

/-- R9: the reads of an image's extent, each beginning where the ones before it end (upward: DESIGN CHOICE, log entry
14). -/
def imageReads (addr : Nat) (lengths : List Nat) : List (Use × Access) :=
  (List.range lengths.length).map fun i =>
    (.image (lengths.take i).sum, .read (addr + (lengths.take i).sum) (lengths.getD i 0))

/-- R9: some of the reads of the image not yet issued are issued. -/
def State.readMore (s : State) : State :=
  match s.intake.phase with
  | .executing seq slot image (x :: rest) =>
    let issued := s.port.issueSome s.free Use.isImage (x :: rest)
    { s with
      intake := { s.intake with phase := .executing seq slot image issued.2 }, port := issued.1, free := s.free + 1 }
  | _ => s

/-- R6 to R8: steps 1 to 3. Where they pass, the slot becomes LOADING and the reads of the image begin to be issued. -/
def installReturned (bytes : List Byte) (seq : Count) (s : State) : State :=
  let s := { s with intake := { s.intake with install := true } }
  match installCheck s.slots s.params (slotField bytes) (imageAddr bytes) (imageLength bytes) with
  | .error r => s.answer (refusal seq 2 false r (installResults none none none))
  | .ok i =>
    State.readMore { s with
      slots := s.slots.set i .loading
      intake := { s.intake with
        phase := .executing seq i (List.replicate (imageLength bytes) 0)
          (imageReads (imageAddr bytes)
            (cutExtent (Config.freePiece s.free) (imageLength bytes) (imageLength bytes))) } }

/-- INSTALL_DOCKET (R6). -/
def execInstallDocket (tag : Nat) (bytes : List Byte) (s : State) : Host.Outcome State Fault Refusal :=
  .next (docketReturned tag bytes (docketKind bytes == 2) (installReturned bytes) s)

/-- R10 to R15: steps 5 to 10 on the bytes of the image. The slot becomes READY or EMPTY, then the outcome goes to the
outcome writer. -/
def validateInstall (bytes : List Byte) (seq : Count) (slot : Nat) (s : State) : State :=
  match installViolation s.slots bytes with
  | some v =>
    State.answer { s with slots := s.slots.set slot .empty }
      (refusal seq 2 false v.reason (installResults (some slot) v.station v.knot))
  | none =>
    State.answer { s with slots := s.slots.set slot (.ready (imageProfile bytes)) }
      (completion seq 2 0 (installResults (some slot) none none))

/-- The install in progress, by its phase (R111). -/
def withInstall (k : Count → Nat → State → State) (s : State) : State :=
  match s.intake.phase with
  | .executing seq slot _ _ => k seq slot s
  | _ => s

/-- Bytes put into an image at an offset. -/
def putBytes (image : List Byte) (offset : Nat) (bytes : List Byte) : List Byte :=
  image.take offset ++ bytes ++ image.drop (offset + bytes.length)

/-- R9: a read of the image returns; with the last byte of the extent arrived, the image is validated. -/
def imageReturned (bytes : List Byte) (r : Request) (s : State) : State :=
  match s.intake.phase, r.use with
  | .executing seq slot image unissued, .image offset =>
    let image := putBytes image offset bytes
    State.proceed { s with intake := { s.intake with phase := .executing seq slot image unissued } }
      Use.isImage unissued State.readMore (validateInstall image seq slot)
  | _, _ => s

/-- INSTALL_VALIDATION (R9, R15): a read of the image returns, the last of them or one before it (log entry 15). -/
def execInstallValidation (tag : Nat) (bytes : List Byte) (s : State) : Host.Outcome State Fault Refusal :=
  .next (onReply tag (fun r => r.use.isImage && r.access.readLength == some bytes.length) (imageReturned bytes) s)

/-- R9: a bus error on a read of the image ends the install. Reads not yet issued are not issued, and what those
outstanding return is discarded. -/
def imageFault (s : State) : State :=
  withInstall (fun seq slot s =>
    State.answer { s with
      slots := s.slots.set slot .empty, sig := s.sig.latch .memory, port := s.port.ignore Use.isImage }
      (refusal seq 2 false .memoryFault (installResults (some slot) none none))) s

/-- IMAGE_READ_FAULT (R9). -/
def execImageReadFault (tag : Nat) (s : State) : Host.Outcome State Fault Refusal :=
  .next (onReply tag (fun r => r.use.isImage) (fun _ => imageFault) s)

/-! ### DROP (R17) -/

/-- R17: a DROP docket. -/
def dropReturned (bytes : List Byte) (seq : Count) (s : State) : State :=
  match readySlot s.slots (slotField bytes) with
  | .error r => s.answer (refusal seq 3 false r (dropResults { model := 0, ext := 0 }))
  | .ok p =>
    State.answer { s with slots := s.slots.set (slotField bytes) .empty } (completion seq 3 0 (dropResults p.ident))

/-- DROP_DOCKET (R17). -/
def execDropDocket (tag : Nat) (bytes : List Byte) (s : State) : Host.Outcome State Fault Refusal :=
  .next (docketReturned tag bytes (docketKind bytes == 3) (dropReturned bytes) s)

/-! ### TRIM (R18 to R20) -/

/-- R18: a TRIM refused before its slot is found READY holds 0, 0, 0 in its result fields. -/
def noTrims : Trims := { x := 0, y := 0, scale := 0 }

/-- R18: the slot checks of a TRIM, `k` going on with the READY slot's profile. -/
def trimReturned (bytes : List Byte) (k : Profile → State → State) (seq : Count) (s : State) : State :=
  match readySlot s.slots (slotField bytes) with
  | .error r => s.answer (refusal seq 4 false r (trimResults noTrims))
  | .ok p => k p s

/-- R18 to R20: the slot's trims become what was asked for, held at their limits. -/
def trimApplied (bytes : List Byte) (asked : Trims) (seq : Count) (p : Profile) (s : State) : State :=
  let (trims, notes) := applyTrims asked
  State.answer { s with slots := s.slots.set (slotField bytes) (.ready { p with trims }) }
    (completion seq 4 notes (trimResults trims))

/-- R18, R19: a NUDGE. -/
def nudgeReturned (bytes : List Byte) (seq : Count) : State → State :=
  trimReturned bytes (fun p s =>
    if (trimValues bytes).nudgeable then trimApplied bytes (p.trims.plus (trimValues bytes)) seq p s
    else s.answer (refusal seq 4 false .trimRange (trimResults p.trims))) seq

/-- TRIM_NUDGE (R19). -/
def execTrimNudge (tag : Nat) (bytes : List Byte) (s : State) : Host.Outcome State Fault Refusal :=
  .next (docketReturned tag bytes (docketKind bytes == 4 && trimMode bytes == 0) (nudgeReturned bytes) s)

/-- R18, R20: a SET. -/
def setReturned (bytes : List Byte) (seq : Count) : State → State :=
  trimReturned bytes (fun p s => trimApplied bytes (trimValues bytes) seq p s) seq

/-- TRIM_SET (R20). -/
def execTrimSet (tag : Nat) (bytes : List Byte) (s : State) : Host.Outcome State Fault Refusal :=
  .next (docketReturned tag bytes (docketKind bytes == 4 && trimMode bytes == 1) (setReturned bytes) s)

/-- R18: a TRIM whose mode is neither NUDGE nor SET. -/
def badModeReturned (bytes : List Byte) (seq : Count) : State → State :=
  trimReturned bytes (fun p s => s.answer (refusal seq 4 false .badTrimMode (trimResults p.trims))) seq

/-- BAD_TRIM_MODE (R18). -/
def execBadTrimMode (tag : Nat) (bytes : List Byte) (s : State) : Host.Outcome State Fault Refusal :=
  .next (docketReturned tag bytes (docketKind bytes == 4 && decide (1 < trimMode bytes)) (badModeReturned bytes) s)

/-! ### OPTIONS (R142 to R145) -/

/-- R133, R144: whether an OPTIONS docket carries its field `i`, in mask order. -/
def optionPresent (bytes : List Byte) (i : Nat) : Bool := (fieldAt bytes 16 1).testBit i

/-- R133: the value of field `i`, in mask order: GROUPING, MISSING_POLICY, STALE_POLICY, REPORT_MASK. -/
def optionValue (bytes : List Byte) (i : Nat) : Nat := fieldAt bytes (17 + i) 1

/-- R144: the valid values of field `i`. -/
def optionValid (i v : Nat) : Bool := if i = 0 then groupingValid v else if i = 3 then true else decide (v ≤ 1)

/-- R144: the index, in mask order, of the first present field that is invalid. -/
def firstInvalidOption (bytes : List Byte) : Option Nat :=
  [0, 1, 2, 3].find? fun i => optionPresent bytes i && !optionValid i (optionValue bytes i)

/-- R144: all present fields applied together. -/
def applyOptions (bytes : List Byte) (g : Signalling) : Signalling :=
  let g := if optionPresent bytes 0 then g.setGrouping (optionValue bytes 0) else g
  let g := if optionPresent bytes 1 then { g with missing := .ofByte (optionValue bytes 1) } else g
  let g := if optionPresent bytes 2 then { g with stale := .ofByte (optionValue bytes 2) } else g
  if optionPresent bytes 3 then { g with mask := .ofByte (optionValue bytes 3) } else g

/-- R144: an OPTIONS docket. Refused, it changes nothing but N, which becomes 0 where GROUPING is the first invalid
field. -/
def optionsReturned (bytes : List Byte) (seq : Count) (s : State) : State :=
  match firstInvalidOption bytes with
  | none => State.answer { s with sig := applyOptions bytes s.sig } (completion seq 5 0 (optionsResults none))
  | some i =>
    State.answer { s with sig := if i = 0 then s.sig.setGrouping 0 else s.sig }
      (refusal seq 5 false .badOption (optionsResults (some i)))

/-- OPTIONS_DOCKET (R144). -/
def execOptionsDocket (tag : Nat) (bytes : List Byte) (s : State) : Host.Outcome State Fault Refusal :=
  .next (docketReturned tag bytes (docketKind bytes == 5) (optionsReturned bytes) s)

end Sys2Proof.Machine
end

