-- ==== Sys2Proof/Machine/Writers.lean ====
section
/-! DEFINITION. The outcome writer, retirement, the signalling update and the report writer; the commands
OUTCOME_TAKE_UP, OUTCOME_WRITE_ACK, SIGNALLING_UPDATE, REPORT_WRITE_TAKE_UP, REPORT_WRITE_ACK. -/

namespace Sys2Proof.Machine

/-! ### Taking up an answer (R94, R95, R97, R118) -/

/-- R94, R118: the outcome of an entry's verdict, DONE or DONE_NOTED by its note set. -/
def verdictOutcome (v : Verdict) (notes : BitVec 16) : DocketOutcome :=
  match v with
  | .finished => if notes = 0 then .done else .doneNoted
  | .abandoned _ => .abandoned
  | .cancelled => .cancelled

/-- R118: the reason of an entry's verdict. -/
def verdictReason : Verdict → Option Reason
  | .abandoned r => some r
  | _ => none

/-- R94, R95: the answer of an entry, taken up at timebase value `completion`. -/
def entryAnswer (e : Entry) (v : Verdict) (completion : Stamp) : Answer :=
  { seq := e.seq, kind := 1, rush := e.rush, outcome := verdictOutcome v e.notes, reason := verdictReason v
    notes := some e.notes, results := entryResults e completion }

/-- A write issued only where it has something to write (R118). -/
def writeUnlessEmpty (use : Use) (pieces : List (Nat × List Byte)) : List (Use × Access) :=
  if pieces.isEmpty then [] else [(use, .write pieces)]

/-- R118: the writes of an answer, in order. -/
def answerWrites (xbase : BitVec 32) (a : Answer) : List (Use × Access) :=
  let base := docketAddr xbase a.seq
  writeUnlessEmpty (.answer .reasonNotes) (reasonNotesPieces base a)
    ++ writeUnlessEmpty (.answer .results) (resultPieces base a)
    ++ [(.answer .outcome, .write (outcomePieces base a))]

/-- R97: what a waiting answer writes; none for an entry no longer in the list, which no run reaches. -/
def takenAnswer (s : State) : WaitingAnswer → Option (Answer × Bool)
  | .intake a => some (a, false)
  | .entry seq v => (s.work.find? fun e => e.seq == seq).map fun e => (entryAnswer e v s.tap.timebase, true)

/-- R98, R118: the next of the answer's writes not yet issued is issued, each after the acknowledgement of the one
before it (DEDUCED, log entry 31). -/
def issueAnswerWrite (h : InHand) (s : State) : State :=
  { s with
    writer := { s.writer with inHand := some { h with unissued := h.unissued.drop 1 } }
    port := s.port.issueAll (h.unissued.take 1) }

/-- R97: the free outcome writer takes up the next waiting answer and begins its writes. -/
def takeUpAnswer (s : State) : State :=
  match s.writer.inHand, s.writer.waiting with
  | none, next :: rest =>
    match takenAnswer s next with
    | some (a, ofEntry) =>
      issueAnswerWrite
        { answer := a, ofEntry, stage := .writing, metPost := false, unissued := answerWrites s.win.xbase a }
        { s with writer := { inHand := none, waiting := rest } }
    | none => { s with writer := { inHand := none, waiting := rest } }
  | _, _ => s

/-- OUTCOME_TAKE_UP (R97). -/
def execOutcomeTakeUp (s : State) : Host.Outcome State Fault Refusal :=
  .next (if s.working then takeUpAnswer s else s)

/-! ### The outcome write acknowledged (R96, R118, R121, R122) -/

/-- R96: the work list without the answered entry. -/
def leaveList (work : List Entry) (seq : Count) : List Entry := work.eraseP fun e => e.seq == seq

/-- R96: the engine after the entry has left, FREE where it served it. -/
def engineAfter (engine : Engine) (work : List Entry) (seq : Count) : Engine :=
  if (work.find? fun e => e.seq == seq).map Entry.state = some .running then .free else engine

/-- R108, R118, R121: the flag of the answered docket is set and the retire check made; the install-in-progress flag is
cleared after the intake unit's own answer (R6, R15). -/
def Intake.answered (i : Intake) (seq : Count) (ofEntry : Bool) : Intake :=
  let i := { i with map := setFlag i.map seq, install := i.install && ofEntry }
  { i with retired := i.retireCheck }

/-- R118, R122: the answer is complete. The retire check that advanced the retired count asks for a report block write
and waits for it; whether it advanced it to equal POST is noted for the update. -/
def answerAcked (h : InHand) (s : State) : State :=
  let intake := s.intake.answered h.answer.seq h.ofEntry
  let advanced := intake.retired != s.intake.retired
  { s with
    work := if h.ofEntry then leaveList s.work h.answer.seq else s.work
    engine := if h.ofEntry then engineAfter s.engine s.work h.answer.seq else s.engine
    intake
    report := s.report.ask (s.working && advanced)
    writer := { s.writer with inHand := some { h with
      stage := if advanced then .reportAsked else .update, metPost := advanced && intake.retired == s.win.post } } }

/-- The answer in hand, where the writer has come to this stage. -/
def withInHand (stage : Stage) (k : InHand → State → State) (s : State) : State :=
  match s.writer.inHand with
  | some h => if h.stage = stage then k h s else s
  | none => s

/-- R118: a write of the answer is acknowledged: the outcome byte's completes the answer, an earlier one is followed by
the next. -/
def answerWriteAcked (r : Request) : State → State :=
  withInHand .writing (if r.use = .answer .outcome then answerAcked else issueAnswerWrite)

/-- OUTCOME_WRITE_ACK (R118): the outcome byte's write, or one before it (log entry 15), is acknowledged. -/
def execOutcomeWriteAck (tag : Nat) (s : State) : Host.Outcome State Fault Refusal :=
  .next (onReply tag (fun r => r.use.isAnswer) answerWriteAcked s)

/-! ### The signalling update (R120, R138) -/

/-- R120, R138: the update is handed over, the outcome writer is free, and an intake phase of WRITING for the intake
unit's own answer returns to IDLE. "Retired equals POST" is handed over where the retire check advanced the retired
count to equal POST (R122), and where they are equal now (R120, R138; DEDUCED, log entry 32). -/
def signalAnswer (h : InHand) (s : State) : State :=
  State.cancelCheck { s with
    sig := s.sig.update h.answer.rush h.answer.outcome (h.metPost || s.retiredIsPost)
    writer := { s.writer with inHand := none }
    intake := if h.ofEntry then s.intake else { s.intake with phase := .idle } }

/-- SIGNALLING_UPDATE (R138). -/
def execSignallingUpdate (s : State) : Host.Outcome State Fault Refusal :=
  .next (withInHand .update signalAnswer s)

/-! ### The report writer (R123 to R125) -/

/-- R125: the three writes of a report block write. -/
def reportWrites (xbase : BitVec 32) (seq : BitVec 16) (body : List Byte) : List (Use × Access) :=
  let base := xbase.toNat + Config.reportOffset
  [(.report .leading, .write [(base, leBytes 2 seq.toNat)]),
   (.report .body, .write [(base + 2, body)]),
   (.report .trailing, .write [(base + 252, leBytes 2 seq.toNat ++ leBytes 2 0)])]

/-- R122, R124: a waiting retire check sees its write taken up, or acknowledged. -/
def Stage.onTakeUp : Stage → Stage
  | .reportAsked => .reportCarried
  | st => st

def Stage.onReportAck : Stage → Stage
  | .reportCarried => .update
  | st => st

/-- R124, R169: a waiting cancel completion sees its write taken up, or acknowledged. -/
def CancelStage.onTakeUp : CancelStage → CancelStage
  | .reportAsked => .reportCarried
  | st => st

def CancelStage.onReportAck : CancelStage → CancelStage
  | .reportCarried => .reported
  | st => st

/-- The two requesters that wait for a report block write move on together (R124). -/
def State.moveWaiters (s : State) (f : Stage → Stage) (g : CancelStage → CancelStage) : State :=
  { s with
    writer := { s.writer with inHand := s.writer.inHand.map fun h => { h with stage := f h.stage } }
    win := { s.win with cancel := s.win.cancel.map fun c => { c with stage := g c.stage } } }

/-- R123, R124: the report writer takes up a requested or pending write: the sequence number advances, the content is
captured and the writes issued, as one step. -/
def takeUpReport (s : State) : State :=
  let seq := s.report.seq + 1
  State.moveWaiters { s with
    report := { seq, writing := true, pending := false }
    port := s.port.issueAll (reportWrites s.win.xbase seq (reportBody s)) } Stage.onTakeUp CancelStage.onTakeUp

/-- REPORT_WRITE_TAKE_UP (R123). -/
def execReportWriteTakeUp (s : State) : Host.Outcome State Fault Refusal :=
  .next (if s.working && !s.report.writing && s.report.pending then takeUpReport s else s)

/-- R124, R125: the write is acknowledged and the requesters waiting on it are satisfied. -/
def reportAcked (s : State) : State :=
  State.moveWaiters { s with report := { s.report with writing := false } } Stage.onReportAck CancelStage.onReportAck

/-- R125: a write of the report block is acknowledged; the third one's acknowledgement is that of the whole. -/
def reportWriteAcked (r : Request) (s : State) : State := if r.use = .report .trailing then reportAcked s else s

/-- REPORT_WRITE_ACK (R125): the trailing sequence write, or one before it (log entry 15), is acknowledged. -/
def execReportWriteAck (tag : Nat) (s : State) : Host.Outcome State Fault Refusal :=
  .next (onReply tag (fun r => r.use.isReport) reportWriteAcked s)

end Sys2Proof.Machine
end

