-- ==== Sys2Proof/Machine/Bus.lean ====
section
/-! DEFINITION. The setup block's read and RUN entry (R164, R165), exchange faults (R126), and the memory request
timeout (R80); the commands SETUP_READ_RETURN, SETUP_READ_FAULT, EXCHANGE_FAULT, MEMORY_REQUEST_TIMEOUT. -/

namespace Sys2Proof.Machine

/-! ### RUN entry (R165) -/

/-- R165 step 1: Wf, Hf and the window are locked, Q and L loaded, and a new Q acts on the quiet condition at once
(R40; log entry 19). -/
def loadParameters (b : SetupBlock) (s : State) : State :=
  let s := { s with
    win := { s.win with locked := some b.params }
    tap := { s.tap with latency := b.latency, quietMs := b.quietMs } }
  if s.tap.quietDue then startQuiet s else s

/-- R165 steps 2 to 4: the counts, the options and the operating state. -/
def loadOptions (b : SetupBlock) (s : State) : State :=
  { s with
    win := { s.win with
      post := 0, setupRead := false, state := if s.thermal.shutdown then .hot else .run }
    intake := { s.intake with taken := 0, retired := 0, map := 0, phase := .idle }
    sig := { ({ s.sig with counter := 0 } : Signalling).setGrouping b.grouping with
      missing := .ofByte b.missing, stale := .ofByte b.stale, mask := .ofByte b.mask } }

/-- R165: RUN entry, taken whole. -/
def enterRun (b : SetupBlock) (s : State) : State := (loadOptions b (loadParameters b s)).askReport

/-- R164: the setup block's read returns. -/
def setupReturned (bytes : List Byte) (s : State) : State :=
  if s.win.state = .setup then
    if (setupFields bytes).valid s.win.xbase then enterRun (setupFields bytes) s
    else State.error { s with win := { s.win with setupRead := false } } .setupInvalid
  else s

/-- SETUP_READ_RETURN (R164). -/
def execSetupReadReturn (tag : Nat) (bytes : List Byte) (s : State) : Host.Outcome State Fault Refusal :=
  .next (onReply tag (fun r => r.use == .setupBlock && r.access.readLength == some bytes.length)
    (fun _ => setupReturned bytes) s)

/-- R164: a bus error on the setup block's read. -/
def setupFault (s : State) : State :=
  State.error { s with win := { s.win with setupRead := false } } .setupReadFault

/-- SETUP_READ_FAULT (R164). -/
def execSetupReadFault (tag : Nat) (s : State) : Host.Outcome State Fault Refusal :=
  .next (onReply tag (fun r => r.use == .setupBlock) (fun _ => setupFault) s)

/-! ### Exchange faults (R126) and timeouts (R80) -/

/-- R126: an exchange fault taken in RUN or HOT enters HALTED. -/
def exchangeFault (s : State) : State := if s.working then s.enterHalted else s

/-- EXCHANGE_FAULT (R126). -/
def execExchangeFault (tag : Nat) (s : State) : Host.Outcome State Fault Refusal :=
  .next (onReply tag (fun r => r.use.isExchange) (fun _ => exchangeFault) s)

/-- A bus error on a request goes to the block that issued it. -/
def busError (r : Request) (s : State) : State :=
  match r.use with
  | .setupBlock => setupFault s
  | .docket => exchangeFault s
  | .image _ => imageFault s
  | .bandRead _ _ => bandFailed s
  | .bandWrite _ _ => bandFailed s
  | .answer _ => exchangeFault s
  | .report _ => exchangeFault s

/-- MEMORY_REQUEST_TIMEOUT (R80): a request that has waited 10 ms without a reply is returned as a bus error. -/
def execMemoryRequestTimeout (tag : Nat) (s : State) : Host.Outcome State Fault Refusal :=
  .next (onReply tag (fun _ => true) busError s)

end Sys2Proof.Machine
end

