-- ==== Sys2Proof/Machine/Thermal.lean ====
section
/-! DEFINITION. Chapter 8: the temperature sample, the warning and shutdown conditions, entry to HOT and the return to
RUN; the command TEMPERATURE_SAMPLE. -/

namespace Sys2Proof.Machine

/-- R154: the die temperature in whole degrees, rounded toward minus infinity. -/
def wholeDegrees (milliCelsius : Int) : Int := milliCelsius / 1000

/-- R154: the temperature code of a measured T. -/
def temperatureCode (t : Int) : BitVec 8 :=
  if t ≤ -40 then 0 else if 215 ≤ t then 255 else BitVec.ofInt 8 (t + 40)

/-- A condition with hysteresis (R155, R156): it starts at a code of `start` or more, ends at `stop` or less, and
otherwise keeps its state. -/
def judge (present : Bool) (start stop : Nat) (code : BitVec 8) : Bool :=
  if present then decide (stop < code.toNat) else decide (start ≤ code.toNat)

/-- The signalling unit is told of a condition's start or end (R146). -/
def Signalling.follow (g : Signalling) (c : Condition) (before after : Bool) : Signalling :=
  if before = after then g else if after then g.conditionStart c else g.conditionEnd c

/-- R93: the warning condition beginning in the middle of a band gives WARM to the RUNNING entry. -/
def warmInBand (e : Engine) (work : List Entry) : List Entry :=
  match e with
  | .band _ _ _ => warmRunning true work
  | _ => work

/-- R155: the warning condition judged on the new code, and its start or end handed on. -/
def judgeWarning (s : State) : State :=
  let now := judge s.thermal.warning Config.warnStart Config.warnEnd s.thermal.code
  { s with
    thermal := { s.thermal with warning := now }
    sig := s.sig.follow .warning s.thermal.warning now
    work := if !s.thermal.warning && now then warmInBand s.engine s.work else s.work }

/-- R100, R159: entry to HOT breaks off a band in progress, whose frame is to be written ABANDONED with OVERHEAT. -/
def breakOffHot (s : State) : State :=
  match s.engine with
  | .band _ _ _ => s.stopBand (.abandoned .overheat)
  | _ => s

/-- R159, R160: the operating state follows the shutdown condition between RUN and HOT. On the return to RUN the
scheduler makes a pick at once where R87 allows it. -/
def followShutdown (before after : Bool) (s : State) : State :=
  if !before && after && s.win.state == .run then breakOffHot { s with win := { s.win with state := .hot } }
  else if before && !after && s.win.state == .hot then
    State.pick { s with win := { s.win with state := .run } }
  else s

/-- R156: the shutdown condition judged on the new code, and its start or end handed on. -/
def judgeShutdown (s : State) : State :=
  let now := judge s.thermal.shutdown Config.shutdownStart Config.shutdownEnd s.thermal.code
  followShutdown s.thermal.shutdown now
    { s with
      thermal := { s.thermal with shutdown := now }
      sig := s.sig.follow .shutdown s.thermal.shutdown now }

/-- R154, R157: a sample, taken whole. -/
def thermalSample (t : Int) (s : State) : State :=
  judgeShutdown (judgeWarning { s with thermal := { s.thermal with code := temperatureCode t } })

/-- TEMPERATURE_SAMPLE (R154). -/
def execTemperatureSample (milliCelsius : Int) (s : State) : Host.Outcome State Fault Refusal :=
  .next (thermalSample (wholeDegrees milliCelsius) s)

end Sys2Proof.Machine
end

