-- ==== Sys2Proof/Machine/Dispatch.lean ====
section
/-! DEFINITION. The one match from a command to its meaning. -/

namespace Sys2Proof.Machine

def exec (i : Instr) (s : State) : Host.Outcome State Fault Refusal :=
  match i with
  | .powerOnReset => Sys2Proof.Machine.execPowerOnReset s
  | .tick => Sys2Proof.Machine.execTick s
  | .eraYoungClear => Sys2Proof.Machine.execEraYoungClear s
  | .sync => Sys2Proof.Machine.execSync s
  | .lensMessage line => Sys2Proof.Machine.execLensMessage line s
  | .quietTimerExpiry => Sys2Proof.Machine.execQuietTimerExpiry s
  | .temperatureSample milliCelsius => Sys2Proof.Machine.execTemperatureSample milliCelsius s
  | .ack mask => Sys2Proof.Machine.execAck mask s
  | .clearFaults => Sys2Proof.Machine.execClearFaults s
  | .errorClear => Sys2Proof.Machine.execErrorClear s
  | .irqEnableUpdate update enable => Sys2Proof.Machine.execIrqEnableUpdate update enable s
  | .cancel => Sys2Proof.Machine.execCancel s
  | .modeRun => Sys2Proof.Machine.execModeRun s
  | .modeReopen => Sys2Proof.Machine.execModeReopen s
  | .softReset => Sys2Proof.Machine.execSoftReset s
  | .postWrite value => Sys2Proof.Machine.execPostWrite value s
  | .xbaseWrite value => Sys2Proof.Machine.execXbaseWrite value s
  | .otherRegisterWrite offset width value => Sys2Proof.Machine.execOtherRegisterWrite offset width value s
  | .setupReadReturn tag bytes => Sys2Proof.Machine.execSetupReadReturn tag bytes s
  | .setupReadFault tag => Sys2Proof.Machine.execSetupReadFault tag s
  | .takeDocket => Sys2Proof.Machine.execTakeDocket s
  | .frameDocket tag bytes => Sys2Proof.Machine.execFrameDocket tag bytes s
  | .installDocket tag bytes => Sys2Proof.Machine.execInstallDocket tag bytes s
  | .dropDocket tag bytes => Sys2Proof.Machine.execDropDocket tag bytes s
  | .trimNudge tag bytes => Sys2Proof.Machine.execTrimNudge tag bytes s
  | .trimSet tag bytes => Sys2Proof.Machine.execTrimSet tag bytes s
  | .optionsDocket tag bytes => Sys2Proof.Machine.execOptionsDocket tag bytes s
  | .badKindDocket tag bytes => Sys2Proof.Machine.execBadKindDocket tag bytes s
  | .installValidation tag bytes => Sys2Proof.Machine.execInstallValidation tag bytes s
  | .imageReadFault tag => Sys2Proof.Machine.execImageReadFault tag s
  | .resolveFrame => Sys2Proof.Machine.execResolveFrame s
  | .pick => Sys2Proof.Machine.execPick s
  | .bandReadReturn tag bytes => Sys2Proof.Machine.execBandReadReturn tag bytes s
  | .bandWriteAck tag => Sys2Proof.Machine.execBandWriteAck tag s
  | .bandBusError tag => Sys2Proof.Machine.execBandBusError tag s
  | .memoryRequestTimeout tag => Sys2Proof.Machine.execMemoryRequestTimeout tag s
  | .drainEnd => Sys2Proof.Machine.execDrainEnd s
  | .outcomeTakeUp => Sys2Proof.Machine.execOutcomeTakeUp s
  | .outcomeWriteAck tag => Sys2Proof.Machine.execOutcomeWriteAck tag s
  | .reportWriteTakeUp => Sys2Proof.Machine.execReportWriteTakeUp s
  | .reportWriteAck tag => Sys2Proof.Machine.execReportWriteAck tag s
  | .signallingUpdate => Sys2Proof.Machine.execSignallingUpdate s
  | .exchangeFault tag => Sys2Proof.Machine.execExchangeFault tag s
  | .markDocket => Sys2Proof.Machine.execMarkDocket s
  | .cancelComplete => Sys2Proof.Machine.execCancelComplete s
  | .badTrimMode tag bytes => Sys2Proof.Machine.execBadTrimMode tag bytes s

end Sys2Proof.Machine
end

