-- ==== Sys2Proof/Machine/Registers.lean ====
section
/-! DEFINITION. The register window as the host sees it (R128, R153, R163, R174): what a read returns, and the commands
a write amounts to. -/

namespace Sys2Proof.Machine

/-- The pending flags as STATUS bits 7..3 and ACK bits show them: bit 0 DONE, 1 RUSH, 2 FAULT, 3 ERROR, 4 CANCEL. -/
def Flags.bits (f : Flags) : BitVec 5 :=
  BitVec.ofBool f.cancel ++ BitVec.ofBool f.error ++ BitVec.ofBool f.fault ++ BitVec.ofBool f.rush
    ++ BitVec.ofBool f.done

/-- The fault latches as STATUS bits 12..8 show them. -/
def Latches.bits (l : Latches) : BitVec 5 :=
  BitVec.ofBool l.memory ++ BitVec.ofBool l.heatShutdown ++ BitVec.ofBool l.heatWarn ++ BitVec.ofBool l.lensChange
    ++ BitVec.ofBool l.lensQuiet

/-- R128, R153: the STATUS picture, from bit 31 down: first-error code, temperature code, 0, fault latches, pending
flags, cancelling, state. -/
def statusWord (s : State) : BitVec 32 :=
  BitVec.ofNat 8 ((s.sig.firstError.map ErrorCode.code).getD 0) ++ s.thermal.code ++ 0#3 ++ s.sig.latches.bits
    ++ s.sig.flags.bits ++ BitVec.ofBool s.win.cancel.isSome ++ BitVec.ofNat 2 s.win.state.code

/-- R128, R174: a 32-bit read at an offset of the window. -/
def readRegister (s : State) (offset : Nat) : BitVec 32 :=
  match offset with
  | 0x00 => Config.familyCode ++ 0#8 ++ Config.revision
  | 0x04 => 0#15 ++ BitVec.ofBool s.sig.irqEnable ++ 0#16
  | 0x08 => 0#16 ++ s.win.post
  | 0x0C => statusWord s
  | 0x10 => s.win.xbase
  | _ => 0

/-- R128: a read of `width` bytes, narrower reads returning the addressed bytes of the register. A read that runs past
the register's end returns the bytes up to its end alone (DESIGN CHOICE, log entry 33). -/
def readWindow (s : State) (offset width : Nat) : List Byte :=
  (leBytes 4 (readRegister s (offset - offset % 4)).toNat).drop (offset % 4) |>.take width

/-- R128, R163: the parts of a 32-bit CTRL write in the order they act; a soft reset acts alone. -/
def ctrlWrite (v : BitVec 32) : List Instr :=
  if v.getLsbD 5 then [.softReset]
  else
    (if v.extractLsb' 8 5 = 0 then [] else [.ack (v.extractLsb' 8 5)])
      ++ (if v.getLsbD 3 then [.clearFaults] else [])
      ++ (if v.getLsbD 4 then [.errorClear] else [])
      ++ (if v.getLsbD 17 then [.irqEnableUpdate true (v.getLsbD 16)] else [])
      ++ (if v.getLsbD 2 then [.cancel] else [])
      ++ (if v.extractLsb' 0 2 = 1 then [.modeRun] else if v.extractLsb' 0 2 = 2 then [.modeReopen] else [])

/-- R128: the commands of a register write of `width` bytes at an offset of the window. -/
def registerWrite (offset width : Nat) (v : BitVec 32) : List Instr :=
  if width = 4 then
    match offset with
    | 0x04 => ctrlWrite v
    | 0x08 => [.postWrite v]
    | 0x10 => [.xbaseWrite v]
    | _ => [.otherRegisterWrite offset width v]
  else [.otherRegisterWrite offset width v]

/-- The host's write put behind the commands that wait. -/
def State.hostWrite (s : State) (offset width : Nat) (v : BitVec 32) : State :=
  { s with pending := s.pending ++ registerWrite offset width v }

end Sys2Proof.Machine
end

