-- ==== Sys2Proof/Safety.lean ====
section
/-! DEFINITION. What counts as a safe state, in the manual's own terms, and the words the statements are written in. -/

namespace Sys2Proof.Machine

/-! ### Replies of the memory port, as hypotheses -/

/-- The port holds a live read of `length` bytes under the name `tag`. -/
def State.awaitsRead (s : State) (tag : Nat) (use : Use) (length : Nat) : Prop :=
  ∃ addr, s.port.find tag = some { tag, use, access := .read addr length, live := true }

/-- The port holds a live write under the name `tag`. -/
def State.awaitsWrite (s : State) (tag : Nat) (use : Use) : Prop :=
  ∃ pieces, s.port.find tag = some { tag, use, access := .write pieces, live := true }

/-- The port after the request `tag` has ended. -/
def State.portWithout (s : State) (tag : Nat) : Port := { s.port with reqs := s.port.reqs.filter (·.tag != tag) }

/-- The intake unit holds docket `seq` in phase READING, its read is outstanding as `tag`, and `bytes` are the bytes the
read returns. -/
def State.awaitsDocket (s : State) (tag : Nat) (seq : Count) (bytes : List Byte) : Prop :=
  s.awaitsRead tag .docket 128 ∧ bytes.length = 128 ∧ s.intake.phase = .reading seq

/-- The state with what a docket's end at intake leaves (R113): the read ended, the phase WRITING, and the answer with
the outcome writer. -/
def State.answeredAtIntake (s : State) (tag : Nat) (a : Answer) : State :=
  { s with
    port := s.portWithout tag
    intake := { s.intake with phase := .writing }
    writer := { s.writer with waiting := s.writer.waiting ++ [.intake a] } }

/-- The state with a register-level error recorded (R151): ERROR set, and the first-error code where it was 0. -/
def State.withError (s : State) (e : ErrorCode) : State :=
  { s with sig := { s.sig with
    flags := { s.sig.flags with error := true }, firstError := some (s.sig.firstError.getD e) } }

/-- The request that a reply, an acknowledgement or a bus error answers; none for the other commands. -/
def replyTag : Instr → Option Nat
  | .setupReadReturn tag _ | .setupReadFault tag | .frameDocket tag _ | .installDocket tag _ | .dropDocket tag _
  | .trimNudge tag _ | .trimSet tag _ | .badTrimMode tag _ | .optionsDocket tag _ | .badKindDocket tag _
  | .installValidation tag _ | .imageReadFault tag | .bandReadReturn tag _ | .bandWriteAck tag | .bandBusError tag
  | .memoryRequestTimeout tag | .outcomeWriteAck tag | .reportWriteAck tag | .exchangeFault tag => some tag
  | _ => none

/-! ### Requests issued a part at a time (R9, R78 to R81) -/

/-- The outcome `o` is the state `s` with the engine in BAND, some of the band's `requests` issued in their order and
the others held back. How many are issued is open, but one at least where no request of the band is outstanding (log
entry 13). -/
def IssuesSome (o : Host.Outcome State Fault Refusal) (s : State) (cache : List CachedRow) (tally : Nat)
    (requests : List (Use × Access)) : Prop :=
  ∃ n, ((∃ r ∈ s.port.reqs, r.live = true ∧ (r.use.isBandRead = true ∨ r.use.isBandWrite = true)) ∨ 1 ≤ n)
    ∧ o = .next { s with
        engine := .band cache tally (requests.drop n), port := s.port.issueAll (requests.take n), free := s.free + 1 }

/-- The outcome `o` is the state `s` with the band that entry `e` names by its next band index started (R78, R79): its
reads begin to be issued or, where it needs no input row, its writes. -/
def StartsBand (o : Host.Outcome State Fault Refusal) (s : State) (e : Entry) : Prop :=
  (bandReads e s.params e.nextBand ≠ [] → IssuesSome o s [] 0 (bandReads e s.params e.nextBand))
    ∧ (bandReads e s.params e.nextBand = [] → 32 * e.nextBand < e.geo.ho →
      IssuesSome o s [] (bandTally e s.params e.nextBand) (bandWrites e s.params [] e.nextBand))

/-- The outcome `o` is the state `s` with intake in EXECUTING, some of the image's `reads` issued in their order and the
others held back. How many are issued is open, but one at least where no read of the image is outstanding (log entry
14). -/
def ReadsSome (o : Host.Outcome State Fault Refusal) (s : State) (seq : Count) (slot : Nat) (image : List Byte)
    (reads : List (Use × Access)) : Prop :=
  ∃ n, ((∃ r ∈ s.port.reqs, r.live = true ∧ r.use.isImage = true) ∨ 1 ≤ n)
    ∧ o = .next { s with
        intake := { s.intake with phase := .executing seq slot image (reads.drop n) }
        port := s.port.issueAll (reads.take n), free := s.free + 1 }

/-! ### The lens line (R24) -/

/-- `bits` more bit times of idle line end the gap that closes `run`. -/
def Receiver.closes (r : Receiver) (run : Run) (bits : Nat) : Prop :=
  r.run = some run ∧ r.phase ≠ .inByte ∧ 32 ≤ r.idleBits + bits

/-- The receiver after a gap of 32 bit times. -/
def Receiver.afterGap : Receiver := { phase := .idle, idleBits := 32, run := none }

/-! ### Rounding and lens messages, as the manual words them -/

/-- "Nearest-away" (spec/00, Rounding): `q` is an integer nearest to `num / den`, and where two are as near, the one
further from zero. -/
def IsNearestAway (q num den : Int) : Prop :=
  2 * |q * den - num| ≤ den ∧ (2 * |q * den - num| = den → |num| < |q * den|)

/-- Byte `i` of a run as the tap heard it (R24), 0 beyond its end. -/
def heardAt (run : Run) (i : Nat) : Nat := ((run.bytes[i]?.map heardValue).getD 0).toNat

/-! ### Commands run in turn -/

/-- The commands of a list run one after the other, the queue apart. -/
def execAll : List Instr → State → Host.Outcome State Fault Refusal
  | [], s => .next s
  | c :: rest, s =>
    match exec c s with
    | .next t => execAll rest t
    | .fault r => .fault r
    | .refused r => .refused r

/-! ### The profile table (R2, R3, R5) -/

/-- R2: a station's knot list. -/
def KnotsOk (ks : List Knot) : Prop :=
  2 ≤ ks.length ∧ ks.length ≤ 16 ∧ (ks.head?.map Knot.u = some 0) ∧ ks.IsChain (fun a b => a.u < b.u)
    ∧ ∀ k ∈ ks, k.u ≤ 8192 ∧ ∀ c, -16384 ≤ k.val.get c ∧ k.val.get c ≤ 16383

/-- R2, R3: trims within their limits. -/
def TrimsOk (t : Trims) : Prop :=
  (-1023 ≤ t.x ∧ t.x ≤ 1023) ∧ (-1023 ≤ t.y ∧ t.y ≤ 1023) ∧ (-255 ≤ t.scale ∧ t.scale ≤ 255)

/-- R1: a lens identity. -/
def IdentOk (id : LensId) : Prop := 1 ≤ id.model ∧ id.model ≤ 65534 ∧ id.ext ≤ 15

/-- R2: the content of a READY slot. -/
def ProfileOk (p : Profile) : Prop :=
  IdentOk p.ident ∧ 1 ≤ p.stations.length ∧ p.stations.length ≤ 8
    ∧ p.stations.IsChain (fun a b => a.focal < b.focal)
    ∧ (∀ s ∈ p.stations, 1 ≤ s.focal ∧ s.focal ≤ 65535 ∧ KnotsOk s.knots)
    ∧ TrimsOk p.trims

/-- R2, R3, R5: the profile table. -/
def TableOk (slots : List Slot) : Prop :=
  slots.length = 12 ∧ (∀ p, Slot.ready p ∈ slots → ProfileOk p)
    ∧ ∀ (i j : Nat) (p q : Profile), slots[i]? = some (.ready p) → slots[j]? = some (.ready q) →
      p.ident = q.ident → i = j

/-- R4: the slot that phase EXECUTING names is LOADING, and no other is: at most one slot is LOADING, and only while its
install is in progress. -/
def LoadingOk (s : State) : Prop :=
  ∀ i, s.slots[i]? = some .loading ↔ ∃ seq image unissued, s.intake.phase = .executing seq i image unissued

/-! ### A profile image's stations (R11, R13, R14) -/

/-- R11: where station `j`'s record starts in a profile image. -/
def stationOffset (b : List Byte) : Nat → Nat
  | 0 => 16
  | j + 1 => stationOffset b j + 4 + 8 * fieldAt b (stationOffset b j + 2) 2

/-- R13: station `j`'s focal length is at least 1 and above the one before it. -/
def FocalOk (stations : List Station) (j : Nat) : Prop :=
  ∃ x, stations[j]? = some x ∧ 1 ≤ x.focal ∧ ∀ i y, i + 1 = j → stations[i]? = some y → y.focal < x.focal

/-- R14: knot `i`'s u is in order. -/
def KnotOrdered (knots : List Knot) (i : Nat) : Prop :=
  ∃ x, knots[i]? = some x ∧ x.u ≤ 8192 ∧ (i = 0 → x.u = 0) ∧ ∀ h y, h + 1 = i → knots[h]? = some y → y.u < x.u

/-- R14: a knot's three values are in range. -/
def KnotInRange (k : Knot) : Prop := ∀ c, -16384 ≤ k.val.get c ∧ k.val.get c ≤ 16383

/-! ### The lens tap (R23, R24, R29, R36) -/

/-- R36: the lens state log. -/
def LogOk (log : List Sample) : Prop :=
  log.length ≤ 64 ∧ log.IsChain (fun a b => earlier a.stamp b.stamp = true)
    ∧ ∀ x ∈ log, 1 ≤ x.focal ∧ x.focal ≤ 65535

/-- R24: the receiver. It counts no idle line within a byte, nor a whole gap within a run, and a run holds a byte but
while its first one is being received. -/
def ReceiverOk (r : Receiver) : Prop :=
  r.idleBits ≤ 32 ∧ (r.phase ≠ .idle → r.idleBits = 0)
    ∧ ∀ run, r.run = some run → r.idleBits < 32 ∧ (run.bytes = [] → r.phase = .inByte)

/-- R23, R24, R29, R36: the tap. -/
def TapOk (t : Tap) : Prop :=
  ReceiverOk t.rx ∧ LogOk t.log ∧ t.latency ≤ 2000 ∧ 8 ≤ t.quietMs ∧ t.quietMs ≤ 250 ∧ (t.current = none → t.log = [])
    ∧ (∀ id, t.current = some id → IdentOk id) ∧ (∀ id, t.candidate = some id → IdentOk id ∧ t.current ≠ some id)

/-! ### The counts (R109, R167) -/

/-- R109: retired ≤ taken ≤ POST ≤ retired + 64, and R167: a cancel boundary lies between taken and POST; no cancel is
in progress in SETUP or HALTED (R162, R170). -/
def CountsOk (s : State) : Prop :=
  ahead s.intake.retired s.intake.taken ≤ ahead s.intake.retired s.win.post
    ∧ ahead s.intake.retired s.win.post ≤ 64
    ∧ (∀ c, s.win.cancel = some c →
        ahead s.intake.retired s.intake.taken ≤ ahead s.intake.retired c.boundary
          ∧ ahead s.intake.retired c.boundary ≤ ahead s.intake.retired s.win.post)
    ∧ (s.win.state = .setup ∨ s.win.state = .halted → s.win.cancel = none)

/-! ### Dockets taken and not yet answered (R84, R97, R111, R118) -/

/-- R111: the docket that the intake unit's phase holds. -/
def IntakePhase.docket : IntakePhase → List Count
  | .reading seq | .executing seq _ _ _ | .place seq _ => [seq]
  | .idle | .writing => []

/-- R113: the docket of an answer of the intake unit's own that waits for the outcome writer. -/
def WaitingAnswer.docket : WaitingAnswer → List Count
  | .intake a => [a.seq]
  | .entry _ _ => []

/-- R118: the docket of an answer of the intake unit's own that is in hand and not yet complete. -/
def InHand.docket (h : InHand) : List Count := if h.ofEntry = false ∧ h.stage = .writing then [h.answer.seq] else []

/-- The docket at the intake unit: held by its phase, or its answer on the way. -/
def State.atIntake (s : State) : List Count :=
  s.intake.phase.docket ++ s.writer.waiting.flatMap WaitingAnswer.docket ++ s.writer.inHand.toList.flatMap InHand.docket

/-- The dockets taken and not yet answered: the work list's, then the one at the intake unit. -/
def State.unanswered (s : State) : List Count := s.work.map Entry.seq ++ s.atIntake

/-- R97: how many answers of the intake unit's own the outcome writer has. -/
def OutcomeWriter.ofIntake (w : OutcomeWriter) : Nat :=
  (w.waiting.flatMap WaitingAnswer.docket).length + w.inHand.toList.countP (fun h => !h.ofEntry)

/-- R84, R85, R96: the dockets taken and not yet answered have sequence numbers of their own, in intake order, none
retired and each with its completion flag clear (R108, R121); the one at the intake unit is the last one taken (R112);
the phase is WRITING exactly while the outcome writer has its answer (R111); an entry is in the list until its answer is
complete; and SETUP and HALTED hold none of them (R127, R162). -/
def DocketsOk (s : State) : Prop :=
  s.unanswered.Pairwise (fun a b => ahead s.intake.retired a < ahead s.intake.retired b)
    ∧ (∀ seq ∈ s.unanswered, ahead s.intake.retired seq < ahead s.intake.retired s.intake.taken
        ∧ s.intake.map.getLsbD (seq.toNat % 64) = false)
    ∧ (∀ seq ∈ s.atIntake, seq + 1 = s.intake.taken)
    ∧ s.writer.ofIntake = (if s.intake.phase = .writing then 1 else 0)
    ∧ (∀ h, s.writer.inHand = some h → h.ofEntry = true → h.stage = .writing → ∃ e ∈ s.work, e.seq = h.answer.seq)
    ∧ (s.win.state = .setup ∨ s.win.state = .halted →
        s.intake.phase = .idle ∧ s.work = [] ∧ s.writer = { inHand := none, waiting := [] })

/-! ### The work list (R55, R57, R84 to R86) -/

def isRunning (e : Entry) : Bool := e.state == .running

/-- R84, R86: at most eight entries, at most one RUNNING, exactly while the engine is not FREE, and at most one PARKED;
a PARKED entry is of class BURST, and while one is PARKED no BURST entry is RUNNING. -/
def WorkOk (s : State) : Prop :=
  s.work.length ≤ 8 ∧ s.work.countP isRunning ≤ 1 ∧ s.work.countP isParked ≤ 1
    ∧ (s.engine = .free ↔ s.work.countP isRunning = 0)
    ∧ (∀ e ∈ s.work, e.state = .parked → e.rush = false)
    ∧ (∀ e ∈ s.work, ∀ r ∈ s.work, e.state = .parked → r.state = .running → r.rush = true)

/-- R64, R115: a frame has 1 to 192 bands. -/
def FrameBandsOk (g : Geometry) : Prop := 1 ≤ g.bands ∧ g.bands ≤ 192

/-- R84, R85: bands done lie in 0 to the frame's band count, at most 192; a WAITING entry has none done, a PARKED one at
least one done and at least one to run, as has a RUNNING one in BAND. The frame waiting in PLACE has passed its
checks. -/
def BandsOk (s : State) : Prop :=
  (∀ e ∈ s.work, FrameBandsOk e.geo ∧ e.nextBand ≤ e.geo.bands ∧ (e.state = .waiting → e.nextBand = 0)
      ∧ (e.state = .parked → 1 ≤ e.nextBand ∧ e.nextBand < e.geo.bands))
    ∧ (∀ cache tally rest, s.engine = .band cache tally rest →
        ∀ e ∈ s.work, e.state = .running → e.nextBand < e.geo.bands)
    ∧ ∀ seq f, s.intake.phase = .place seq f → FrameBandsOk f.geo

/-- R55, R57: what an entry's frozen parts keep to. -/
def EntryOk (e : Entry) : Prop :=
  (∀ c, (e.curve.get c).length = 65 ∧ ∀ x ∈ e.curve.get c, -16384 ≤ x ∧ x ≤ 16383)
    ∧ (e.edge = .fill → ∀ c, e.fill.get c ≤ e.wl)

/-! ### The signalling unit and the thermal monitor (R139, R143, R146, R149, R156) -/

/-- R139, R143: N is one of its values and the counter stays below it, or at 0 while N is 0. -/
def GroupingOk (g : Signalling) : Prop :=
  g.grouping ∈ [0, 1, 2, 4, 8, 16] ∧ (g.counter < g.grouping ∨ (g.grouping = 0 ∧ g.counter = 0))

/-- R146, R149, R156: the copies of the live conditions agree with their owners, a latch that follows a condition is set
while the condition is present, and the shutdown condition holds only while the warning condition holds. -/
def ConditionsOk (s : State) : Prop :=
  s.sig.live = { quiet := s.tap.quiet, warning := s.thermal.warning, shutdown := s.thermal.shutdown }
    ∧ (∀ c, s.sig.live.get c = true → s.sig.latches.get c.latch = true)
    ∧ (s.thermal.shutdown = true → s.thermal.warning = true)

/-- The safe states. -/
def Safe (s : State) : Prop :=
  TableOk s.slots ∧ LoadingOk s ∧ TapOk s.tap ∧ CountsOk s ∧ DocketsOk s ∧ WorkOk s ∧ BandsOk s
    ∧ (∀ e ∈ s.work, EntryOk e) ∧ GroupingOk s.sig ∧ ConditionsOk s

end Sys2Proof.Machine
end

