-- ==== Sys2Proof/Certificates/Slice0/Obligations.lean ====
section
/-! DEFINITION. The statements for the provers, one `def Obligations.<Name> : Prop` each, in the order of
OBLIGATIONS.json. An equation `exec c s = .next { s with … }` says what the command writes and, by the record update,
that every other field of State is as before (its frame). -/

open Sys2Proof Sys2Proof.Machine

/-! ### The queue, the resets -/

/-- One step takes the command at the front of the queue and runs it on the state with the queue's rest. On an empty
queue the block idles; that half is the model's choice (log entry 2). -/
def Obligations.StepRunsFrontCommand : Prop :=
  (∀ (c : Instr) (rest : List Instr) (s : State), s.pending = c :: rest → step s = exec c { s with pending := rest })
    ∧ ∀ s : State, s.pending = [] → step s = .next s

/-- Every command, with any operands and in any state, answers a next state and leaves the queue alone (the queue is the
model's own, log entry 2). -/
def Obligations.EveryCommandCompletes : Prop :=
  ∀ (c : Instr) (s : State), ∃ t, exec c s = .next t ∧ t.pending = s.pending

/-- R172: power-on reset sets every block to its initial state, from any state. What goes on is the model's own: the
queue, the count of free values drawn and the request names (log entry 20); so is the receiver's
initial state, idle with no run and no idle line counted (log entry 22). -/
def Obligations.PowerOnResetState : Prop :=
  ∀ s : State, ∃ t, exec .powerOnReset s = .next t
    ∧ t.win = { state := .setup, post := 0, xbase := 0, setupRead := false, locked := none, cancel := none }
    ∧ t.intake = { taken := 0, retired := 0, map := 0, install := false, phase := .idle }
    ∧ t.sig.irqEnable = false
    ∧ t.sig.flags = { done := false, rush := false, fault := false, error := false, cancel := false }
    ∧ t.sig.latches =
        { lensQuiet := false, lensChange := false, heatWarn := false, heatShutdown := false, memory := false }
    ∧ t.sig.firstError = none ∧ t.sig.counter = 0 ∧ t.sig.grouping = 0
    ∧ t.sig.missing = .pass ∧ t.sig.stale = .hold
    ∧ t.sig.mask = { lensQuiet := false, lensChange := false, heatWarn := false }
    ∧ t.sig.live = { quiet := false, warning := false, shutdown := false }
    ∧ t.slots = [.empty, .empty, .empty, .empty, .empty, .empty, .empty, .empty, .empty, .empty, .empty, .empty]
    ∧ t.tap =
        { rx := { phase := .idle, idleBits := 0, run := none }, timebase := 0, eraYoung := true, latency := 0
          quietMs := 250, last := none, dropped := 0, duplicates := 0, glitches := 0, current := none, candidate := none
          epoch := 0, log := [], quietTimer := 0, quiet := false }
    ∧ t.work = [] ∧ t.engine = .free
    ∧ t.report = { seq := 0, writing := false, pending := false }
    ∧ t.writer = { inHand := none, waiting := [] }
    ∧ t.port.reqs = []
    ∧ t.thermal = { code := 0, warning := false, shutdown := false }
    ∧ t = { State.reset with pending := s.pending, free := s.free, port := { reqs := [], nextTag := s.port.nextTag } }

/-- The state after reset meets every invariant of `Safe`. -/
def Obligations.ResetStateIsSafe : Prop := Safe State.reset

/-- Section 9.6 and R150: what SOFT_RESET leaves in each block. -/
def Obligations.SoftResetState : Prop :=
  ∀ s : State, ∃ t, exec .softReset s = .next t
    ∧ t.win = { state := .setup, post := 0, xbase := s.win.xbase, setupRead := false, locked := none, cancel := none }
    ∧ t.intake = { taken := 0, retired := 0, map := 0, install := false, phase := .idle }
    ∧ t.writer = { inHand := none, waiting := [] }
    ∧ t.report = { seq := s.report.seq, writing := false, pending := false }
    ∧ t.slots.length = s.slots.length
    ∧ (∀ (i : Nat) (x : Slot), s.slots[i]? = some x → t.slots[i]? = some (if x = .loading then .empty else x))
    ∧ t.tap = s.tap ∧ t.work = [] ∧ t.engine = .free ∧ t.thermal = s.thermal
    ∧ t.free = s.free ∧ t.pending = s.pending
    ∧ t.port.nextTag = s.port.nextTag ∧ t.port.reqs = s.port.reqs.map (fun r => { r with live := false })
    ∧ t.sig =
        { s.sig with
          flags := { done := false, rush := false, error := false, cancel := false
                     fault := (s.sig.live.quiet && s.sig.mask.lensQuiet)
                       || (s.sig.live.warning && s.sig.mask.heatWarn) || s.sig.live.shutdown }
          irqEnable := false, firstError := none, counter := 0
          latches := { lensQuiet := s.sig.live.quiet, lensChange := false, heatWarn := s.sig.live.warning
                       heatShutdown := s.sig.live.shutdown, memory := false } }

/-- Sections 9.6 and 6.8: after SOFT_RESET, and after entry to HALTED, no reply, acknowledgement or error of a request
issued before changes anything but the memory port's own list of requests. -/
def Obligations.OldRepliesChangeNothing : Prop :=
  ∀ (s t : State) (c : Instr) (tag : Nat),
    (exec .softReset s = .next t
      ∨ ∃ f, exec (.exchangeFault f) s = .next t ∧ s.win.state ≠ .halted ∧ t.win.state = .halted) →
    replyTag c = some tag →
    ∃ u, exec c t = .next u ∧ u = { t with port := u.port } ∧ ∀ r ∈ u.port.reqs, r ∈ t.port.reqs

/-! ### The lens tap (chapter 2) -/

/-- Sections 2.1 and 2.5: TICK, ERA_YOUNG_CLEAR, SYNC, which also marks a run being received, and QUIET_TIMER_EXPIRY.
That a command whose event has not come about changes nothing is the model's choice (log entries 1 and 6), and so is
that a report block write asked for stands as the pending flag even while the report writer is IDLE (log entry 8). -/
def Obligations.TimeCommands : Prop :=
  (∀ s : State, exec .tick s = .next { s with tap := { s.tap with
      timebase := BitVec.ofNat 32 (s.tap.timebase.toNat + 1), quietTimer := s.tap.quietTimer + 1 } })
    ∧ (∀ s : State, 2000 ≤ s.tap.timebase.toNat →
        exec .eraYoungClear s = .next { s with tap := { s.tap with eraYoung := false } })
    ∧ (∀ s : State, s.tap.timebase.toNat < 2000 → exec .eraYoungClear s = .next s)
    ∧ (∀ s : State, exec .sync s = .next { s with tap := { s.tap with
        timebase := 0, eraYoung := true, log := []
        rx := { s.tap.rx with run := s.tap.rx.run.map fun run => { run with crossedSync := true } } } })
    ∧ (∀ s : State, s.tap.quiet = false → s.tap.quietMs * 1000 ≤ s.tap.quietTimer →
        exec .quietTimerExpiry s = .next { s with
          tap := { s.tap with quiet := true }
          sig := { s.sig with
            live := { s.sig.live with quiet := true }
            latches := { s.sig.latches with lensQuiet := true }
            flags := { s.sig.flags with
              fault := s.sig.flags.fault || (!s.sig.latches.lensQuiet && s.sig.mask.lensQuiet) } }
          report := { s.report with
            pending := s.report.pending || decide (s.win.state = .run ∨ s.win.state = .hot) } })
    ∧ ∀ s : State, (s.tap.quiet = true ∨ s.tap.quietTimer < s.tap.quietMs * 1000) →
        exec .quietTimerExpiry s = .next s

/-- Section 2.2: a run that fails one of the seven checks at its close is discarded: the dropped count grows, saturating
at 65535, the receiver looks for the next run, and nothing else changes. -/
def Obligations.LensRunDiscarded : Prop :=
  ∀ (run : Run) (bits : Nat) (s : State), s.tap.rx.closes run bits →
    (run.crossedSync = true
      ∨ (∃ b ∈ run.bytes, b.samples.getLsbD 8 = false)
      ∨ run.bytes.length ≠ 8
      ∨ heardAt run 0 ≠ 0x6C
      ∨ (run.bytes.map fun b => (heardValue b).toNat).sum % 256 ≠ 255
      ∨ heardAt run 1 + 256 * heardAt run 2 = 0 ∨ heardAt run 1 + 256 * heardAt run 2 = 65535
      ∨ (heardAt run 3 / 16 = 1 ∧ heardAt run 4 + 256 * heardAt run 5 = 0)) →
    exec (.lensMessage [.idle bits]) s = .next { s with tap := { s.tap with
      rx := .afterGap, dropped := BitVec.ofNat 16 (min 65535 (s.tap.dropped.toNat + 1)) } }

/-- Section 2.2: what the tap hears. A line is heard event by event. A start bit begins a byte, and a new run where the
line has idled for 32 bit times; at the stop bit the byte joins the run with the timebase value of the moment, and after
a low one the tap waits for the line to return high; idle line counts toward the gap. Events that cannot follow are not
heard (the model's choice, log entry 22). With section 6.9: a run of the eight bytes of a lens message, heard without
framing error and without a SYNC in between, is an accepted message with their fields and its last byte's arrival. -/
def Obligations.LensMessageBytesAccepted : Prop :=
  (∀ s : State, exec (.lensMessage []) s = .next s)
  ∧ (∀ (line line' : List LineEvent) (s t : State), exec (.lensMessage line) s = .next t →
      exec (.lensMessage (line ++ line')) s = exec (.lensMessage line') t)
  ∧ (∀ (s : State) (samples : BitVec 9) (bits : Nat),
    let hears : Receiver → Host.Outcome State Fault Refusal := fun r => .next { s with tap := { s.tap with rx := r } }
    let rx := s.tap.rx
    (rx.phase = .idle →
      exec (.lensMessage [.start]) s = hears
        { phase := .inByte, idleBits := 0
          run := if rx.idleBits = 32 then some { bytes := [], crossedSync := false } else rx.run }
      ∧ exec (.lensMessage [.stop samples]) s = .next s)
    ∧ (rx.phase = .inByte →
      exec (.lensMessage [.stop samples]) s = hears
        { phase := if samples.getLsbD 8 = true then .idle else .heldLow, idleBits := 0
          run := rx.run.map fun run => { run with bytes := run.bytes ++ [{ samples, stopTime := s.tap.timebase }] } }
      ∧ exec (.lensMessage [.start]) s = .next s ∧ exec (.lensMessage [.idle bits]) s = .next s)
    ∧ (rx.phase = .heldLow →
      exec (.lensMessage [.start]) s = .next s ∧ exec (.lensMessage [.stop samples]) s = .next s)
    ∧ (rx.phase ≠ .inByte → rx.idleBits + bits < 32 →
      exec (.lensMessage [.idle bits]) s = hears { rx with phase := .idle, idleBits := rx.idleBits + bits })
    ∧ (rx.phase ≠ .inByte → 32 ≤ rx.idleBits + bits → rx.run = none →
      exec (.lensMessage [.idle bits]) s = hears .afterGap))
  ∧ ∀ (run : Run) (last : HeardByte) (id : LensId) (kind focal seq : Nat),
    IdentOk id → kind < 16 → focal < 65536 → (kind = 1 → focal ≠ 0) → seq < 256 →
    run.crossedSync = false → (∀ b ∈ run.bytes, b.samples.getLsbD 8 = true) →
    run.bytes.map heardValue = lensBytes id kind focal seq → run.bytes.getLast? = some last →
    acceptRun run = some { ident := id, kind, focal, seq, arrival := last.stopTime }

/-- Sections 2.2 and 2.5: a run closes as an accepted message that is a duplicate, or that is no position report: it
restarts the quiet timer, ends the quiet condition if it stands, and changes the duplicate count, or the duplicate
record, and nothing else. The report block write asked for stands as the pending flag (log entry 8). -/
def Obligations.MessagesThatEndAtTheTap : Prop :=
  ∀ (run : Run) (bits : Nat) (m : Message) (s : State), s.tap.rx.closes run bits → acceptRun run = some m →
    let heard : State := { s with
      sig := { s.sig with live := { s.sig.live with quiet := if s.tap.quiet then false else s.sig.live.quiet } }
      report := { s.report with
        pending := s.report.pending || (s.tap.quiet && decide (s.win.state = .run ∨ s.win.state = .hot)) } }
    (s.tap.last = some { ident := m.ident, kind := m.kind, seq := m.seq } →
      exec (.lensMessage [.idle bits]) s = .next { heard with tap := { s.tap with
        rx := .afterGap, quietTimer := 0, quiet := false
        duplicates := BitVec.ofNat 16 (min 65535 (s.tap.duplicates.toNat + 1)) } })
    ∧ (s.tap.last ≠ some { ident := m.ident, kind := m.kind, seq := m.seq } → m.kind ≠ 1 →
      exec (.lensMessage [.idle bits]) s = .next { heard with tap := { s.tap with
        rx := .afterGap, quietTimer := 0, quiet := false
        last := some { ident := m.ident, kind := m.kind, seq := m.seq } } })

/-- Sections 2.3 to 2.5: the four steps of the identity tracker on a position report that is no duplicate: the report of
the current identity offers its sample to the log; an unfamiliar identity becomes the candidate; the candidate heard
again becomes the current identity; another identity replaces it. The report first restarts the quiet timer and ends the
quiet condition if it stands. That an early report is judged by the era-young flag as it stands at the run's close is
log entry 7 (DEDUCED); a report block write asked for stands as the pending flag (log entry 8). -/
def Obligations.TrackerSteps : Prop :=
  ∀ (run : Run) (bits : Nat) (m : Message) (s : State), s.tap.rx.closes run bits → acceptRun run = some m →
    m.kind = 1 → s.tap.log.length ≤ 64 → s.tap.last ≠ some { ident := m.ident, kind := m.kind, seq := m.seq } →
    let closed : Host.Outcome State Fault Refusal := exec (.lensMessage [.idle bits]) s
    let stamp : Stamp := m.arrival - BitVec.ofNat 32 s.tap.latency
    let early : Prop := s.tap.eraYoung = true ∧ m.arrival.toNat < s.tap.latency
    let working : Bool := decide (s.win.state = .run ∨ s.win.state = .hot)
    let ended : State := { s with
      sig := { s.sig with live := { s.sig.live with quiet := if s.tap.quiet then false else s.sig.live.quiet } }
      report := { s.report with pending := s.report.pending || (s.tap.quiet && working) } }
    let heard : Tap := { s.tap with
      rx := .afterGap, quietTimer := 0, quiet := false
      last := some { ident := m.ident, kind := m.kind, seq := m.seq } }
    let moreDropped : BitVec 16 := BitVec.ofNat 16 (min 65535 (s.tap.dropped.toNat + 1))
    let moreGlitches : BitVec 16 := BitVec.ofNat 16 (min 65535 (s.tap.glitches.toNat + 1))
    (s.tap.current = some m.ident →
      let tracked : Tap := { heard with
        candidate := none, glitches := if s.tap.candidate = none then s.tap.glitches else moreGlitches }
      ((early ∨ ∃ x, s.tap.log.getLast? = some x ∧ stampDiff x.stamp stamp ≤ 0) →
        closed = .next { ended with tap := { tracked with dropped := moreDropped } })
      ∧ ((¬ early ∧ ∀ x, s.tap.log.getLast? = some x → 0 < stampDiff x.stamp stamp) →
        closed = .next { ended with tap := { tracked with
          log := (if s.tap.log.length = 64 then s.tap.log.tail else s.tap.log)
            ++ [{ stamp := stamp, focal := m.focal }] } }))
    ∧ (s.tap.current ≠ some m.ident → s.tap.candidate = none →
      closed = .next { ended with tap := { heard with candidate := some m.ident } })
    ∧ (s.tap.current ≠ some m.ident → s.tap.candidate = some m.ident →
      let confirmed : State := { ended with
        sig := { ended.sig with
          latches := { s.sig.latches with lensChange := true }
          flags := { s.sig.flags with
            fault := s.sig.flags.fault || (!s.sig.latches.lensChange && s.sig.mask.lensChange) } }
        report := { s.report with pending := s.report.pending || working } }
      let tracked : Tap := { heard with
        log := [], epoch := BitVec.ofNat 8 (s.tap.epoch.toNat + 1), current := some m.ident, candidate := none }
      (early → closed = .next { confirmed with tap := { tracked with dropped := moreDropped } })
      ∧ (¬ early → closed = .next { confirmed with tap := { tracked with
          log := [{ stamp := stamp, focal := m.focal }] } }))
    ∧ (s.tap.current ≠ some m.ident → s.tap.candidate ≠ none → s.tap.candidate ≠ some m.ident →
      closed = .next { ended with tap := { heard with candidate := some m.ident, glitches := moreGlitches } })

/-- Section 2.6: the status of a lookup, row by row of its table, and what it returns where a row names a sample. Of
several samples with the stamp, which a log may hold that goes round the 2^32 stamps, which one is returned is open (log
entry 10).
With one sample in the log the answer is MISSING, EXACT, HELD or STALE, EXACT exactly where the stamp is the sample's,
and all but MISSING return its focal position; which of the other three a stamp 2^31 from it gets is open (log entry
9). -/
def Obligations.LookupTable : Prop :=
  (∀ (tap : Tap) (n : Nat) (t : Stamp), tap.current = none ∨ tap.log = [] → (tap.lookup n t).status = .missing)
    ∧ (∀ (tap : Tap) (n : Nat) (t : Stamp) (id : LensId) (x : Sample), tap.current = some id → tap.log = [x] →
      let found := tap.lookup n t
      found.status ∈ [.missing, .exact, .held, .stale] ∧ (found.status = .exact ↔ x.stamp = t)
        ∧ (found.status ≠ .missing → found.focal = x.focal ∧ found.ident = id))
    ∧ ∀ (tap : Tap) (n : Nat) (t : Stamp) (id : LensId) (oldest newest : Sample),
      tap.current = some id → tap.log.head? = some oldest → tap.log.getLast? = some newest →
      (0 < stampDiff t oldest.stamp → (tap.lookup n t).status = .missing)
      ∧ (¬ 0 < stampDiff t oldest.stamp →
        (∀ x ∈ tap.log, x.stamp = t →
          ∃ y ∈ tap.log, y.stamp = t ∧ tap.lookup n t = { status := .exact, focal := y.focal, ident := id })
        ∧ ((∀ x ∈ tap.log, x.stamp ≠ t) →
          (0 < stampDiff oldest.stamp t → 0 < stampDiff t newest.stamp →
            (tap.lookup n t).status = .between ∧ (tap.lookup n t).ident = id)
          ∧ (0 < stampDiff newest.stamp t → stampDiff newest.stamp t ≤ tap.quietMs * 1000 →
            tap.lookup n t = { status := .held, focal := newest.focal, ident := id })
          ∧ (0 < stampDiff newest.stamp t → tap.quietMs * 1000 < stampDiff newest.stamp t →
            tap.lookup n t = { status := .stale, focal := newest.focal, ident := id })))

/-- R43: the focal length of a BETWEEN lookup, from the two adjacent samples with the stamp between them. Every log of
the tap is within `LogOk` (`TapKept`); of several adjacent pairs around the stamp, which a log spanning 2^31
microseconds or more may have, which one is taken is open (log entry 10). -/
def Obligations.InterpolatedFocal : Prop :=
  (∀ (a b : Sample) (t : Stamp),
    0 < stampDiff a.stamp t → 0 < stampDiff t b.stamp → 0 < stampDiff a.stamp b.stamp →
    1 ≤ a.focal → a.focal ≤ 65535 → 1 ≤ b.focal → b.focal ≤ 65535 →
    stampDiff a.stamp t < stampDiff a.stamp b.stamp
    ∧ (∃ q : Int, (interpolate a b t : Int) = a.focal + q
        ∧ IsNearestAway q (((b.focal : Int) - a.focal) * stampDiff a.stamp t) (stampDiff a.stamp b.stamp))
    ∧ min a.focal b.focal ≤ interpolate a b t ∧ interpolate a b t ≤ max a.focal b.focal
    ∧ 1 ≤ interpolate a b t ∧ interpolate a b t ≤ 65535
    ∧ (a.focal = b.focal → interpolate a b t = a.focal))
  ∧ (∀ (tap : Tap) (n : Nat) (t : Stamp), LogOk tap.log → (tap.lookup n t).status = .between →
      ∃ (i : Nat) (a b : Sample) (id : LensId), tap.current = some id ∧ tap.log[i]? = some a ∧ tap.log[i + 1]? = some b
        ∧ 0 < stampDiff a.stamp t ∧ 0 < stampDiff t b.stamp ∧ 0 < stampDiff a.stamp b.stamp
        ∧ tap.lookup n t = { status := .between, focal := interpolate a b t, ident := id })
  ∧ ∀ (tap : Tap) (n : Nat) (t : Stamp) (id : LensId) (oldest newest a b : Sample),
      tap.current = some id → tap.log.head? = some oldest → tap.log.getLast? = some newest →
      0 < stampDiff oldest.stamp t → 0 < stampDiff t newest.stamp → (∀ x ∈ tap.log, x.stamp ≠ t) →
      (tap.log.zip tap.log.tail).filter
        (fun p => decide (0 < stampDiff p.1.stamp t) && decide (0 < stampDiff t p.2.stamp)) = [(a, b)] →
      tap.lookup n t = { status := .between, focal := interpolate a b t, ident := id }

/-! ### Resolving a frame (chapter 3) -/

/-- R52: a station evaluated at u for a channel. -/
def Obligations.StationEvaluation : Prop :=
  ∀ (ks : List Knot) (c : Channel) (u : Nat), KnotsOk ks →
    (∀ last, ks.getLast? = some last → last.u ≤ u → evalKnots c ks u = last.val.get c)
    ∧ (∀ (k : Nat) (a b : Knot), ks[k]? = some a → ks[k + 1]? = some b → a.u ≤ u → u < b.u →
      (∃ q : Int, evalKnots c ks u = a.val.get c + q
        ∧ IsNearestAway q ((b.val.get c - a.val.get c) * ((u : Int) - a.u)) ((b.u : Int) - a.u))
      ∧ min (a.val.get c) (b.val.get c) ≤ evalKnots c ks u
      ∧ evalKnots c ks u ≤ max (a.val.get c) (b.val.get c))
    ∧ (∀ last, ks.getLast? = some last → u < last.u →
      ∃ (k : Nat) (a b : Knot), ks[k]? = some a ∧ ks[k + 1]? = some b ∧ a.u ≤ u ∧ u < b.u)
    ∧ (∀ a ∈ ks, u = a.u → evalKnots c ks u = a.val.get c)
    ∧ -16384 ≤ evalKnots c ks u ∧ evalKnots c ks u ≤ 16383

/-- R53: the stations used for a focal length, the note FOCAL_CLAMPED, and the value where one station is used alone. -/
def Obligations.StationsChosen : Prop :=
  (∀ (f : Nat) (stations : List Station), stations.IsChain (fun a b => a.focal < b.focal) →
    (stations.length = 1 → chooseStations f stations = { lower := 0, upper := 0, weight := 0, clamped := false })
    ∧ (2 ≤ stations.length →
      (∀ x, stations.head? = some x → f < x.focal →
        chooseStations f stations = { lower := 0, upper := 0, weight := 0, clamped := true })
      ∧ (∀ x, stations.getLast? = some x → x.focal < f →
        chooseStations f stations =
          { lower := stations.length - 1, upper := stations.length - 1, weight := 0, clamped := true })
      ∧ (∀ (j : Nat) (x : Station), stations[j]? = some x → f = x.focal →
        chooseStations f stations = { lower := j, upper := j, weight := 0, clamped := false })
      ∧ (∀ (j : Nat) (x y : Station), stations[j]? = some x → stations[j + 1]? = some y → x.focal < f → f < y.focal →
        (chooseStations f stations).lower = j ∧ (chooseStations f stations).upper = j + 1
          ∧ (chooseStations f stations).clamped = false)))
  ∧ (∀ (stations : List Station) (ch : StationChoice) (c : Channel) (u : Nat) (x : Station),
      ch.lower = ch.upper → stations[ch.lower]? = some x → blended stations ch c u = evalKnots c x.knots u)
  ∧ ∀ (p : Params) (seq : Count) (f : FrameFields) (id : LensId) (focal slot : Nat) (pr : Profile) (notes : BitVec 16),
      hasNote (correctedEntry p seq f id focal slot pr notes).notes .focalClamped
        = (hasNote notes .focalClamped || (chooseStations focal pr.stations).clamped)

/-- R54: the blend of two stations and its weight. -/
def Obligations.BlendedValue : Prop :=
  ∀ (pr : Profile) (f j : Nat) (x y : Station),
    ProfileOk pr → pr.stations[j]? = some x → pr.stations[j + 1]? = some y → x.focal < f → f < y.focal →
    let ch := chooseStations f pr.stations
    ch.weight = 256 * (f - x.focal) / (y.focal - x.focal) ∧ ch.weight ≤ 255
    ∧ (∀ (c : Channel) (u : Nat),
        let a := evalKnots c x.knots u
        let b := evalKnots c y.knots u
        let d := blended pr.stations ch c u
        (∃ q : Int, d = a + q ∧ IsNearestAway q ((b - a) * ch.weight) 256)
        ∧ min a b ≤ d ∧ d ≤ max a b ∧ -16384 ≤ d ∧ d ≤ 16383 ∧ (ch.weight = 0 → d = a))
    ∧ ∀ (p : Params) (seq : Count) (fr : FrameFields) (id : LensId) (slot : Nat) (notes : BitVec 16),
        (correctedEntry p seq fr id f slot pr notes).result.stations = some (j, j + 1)
        ∧ (correctedEntry p seq fr id f slot pr notes).result.weight = ch.weight

/-- Section 3.4: the frame curve: 65 sums with the scale trim for each channel, each clamped; CURVE_SATURATED where a
sum was clamped, which only a scale trim brings about. -/
def Obligations.FrameCurveClamped : Prop :=
  ∀ (pr : Profile) (f : Nat), ProfileOk pr →
    let ch := chooseStations f pr.stations
    (∀ c : Channel, ((frameCurve pr ch).get c).length = 65
      ∧ ∀ i < 65, ((frameCurve pr ch).get c)[i]?
        = some (max (-16384) (min 16383 (blended pr.stations ch c (128 * i) + pr.trims.scale))))
    ∧ (curveSaturated pr ch = true ↔ ∃ (c : Channel) (i : Nat), i < 65
        ∧ (blended pr.stations ch c (128 * i) + pr.trims.scale < -16384
          ∨ 16383 < blended pr.stations ch c (128 * i) + pr.trims.scale))
    ∧ (pr.trims.scale = 0 → curveSaturated pr ch = false)
    ∧ ∀ (p : Params) (seq : Count) (fr : FrameFields) (id : LensId) (slot : Nat) (notes : BitVec 16),
        (correctedEntry p seq fr id f slot pr notes).curve = frameCurve pr ch
        ∧ hasNote (correctedEntry p seq fr id f slot pr notes).notes .curveSaturated
          = (hasNote notes .curveSaturated || curveSaturated pr ch)

/-- R57: the edge policy and the fill values of an entry, and what the remap engine writes of them. -/
def Obligations.FillValues : Prop :=
  ∀ (seq : Count) (f : FrameFields) (curve : Rgb (List Int)) (cx cy : Int) (notes : BitVec 16) (result : ResultFields),
    let e := makeEntry seq f curve cx cy notes result
    (f.edgeField = 0 → e.edge = .edge ∧ e.fill = f.fill ∧ e.notes = notes)
    ∧ (f.edgeField ≠ 0 → e.edge = .fill
      ∧ (∀ c, e.fill.get c = if f.wl < f.fill.get c then f.wl else f.fill.get c)
      ∧ ((∃ c, f.wl < f.fill.get c) → e.notes = addNote notes .fillClamped)
      ∧ ((∀ c, f.fill.get c ≤ f.wl) → e.notes = notes)
      ∧ ∀ (p : Params) (c : Channel) (input : Nat → Nat → Nat) (xo yo : Nat),
          inside e.geo (sourcePos e p c xo yo) = false →
          outSample e p c input xo yo = e.fill.get c ∧ e.fill.get c ≤ e.wl)

/-- Sections 3.2 to 3.6: where a resolution leads: a GIVEN frame, with a bad identity or focal length; a TAP frame whose
lookup answers EXACT, BETWEEN, HELD, STALE under either stale policy, or MISSING under either missing policy; the search
for a profile, with one found or, under either missing policy, without; and what a corrected and a pass-through entry
hold. -/
def Obligations.FrameResolution : Prop :=
  (∀ (s : State) (seq : Count) (f : FrameFields),
    let a := s.tap.lookup s.free f.stamp
    let searches : LensId → Nat → BitVec 16 → Prop := fun id focal notes =>
      (∀ (i : Nat) (pr : Profile), TableOk s.slots → s.slots[i]? = some (.ready pr) → pr.ident = id →
        resolution s seq f = .ok (correctedEntry s.params seq f id focal i pr notes))
      ∧ ((∀ pr, Slot.ready pr ∈ s.slots → pr.ident ≠ id) →
        (s.sig.missing = .refuse → resolution s seq f = .error .noProfile)
        ∧ (s.sig.missing = .pass →
          resolution s seq f = .ok (passEntry s.params seq f (some id) focal (notes ||| 0x0030))))
    (f.source = 1 →
      ((¬ IdentOk f.given ∨ f.givenFocal = 0) → resolution s seq f = .error .badFocal)
      ∧ (IdentOk f.given → f.givenFocal ≠ 0 → searches f.given f.givenFocal 0))
    ∧ (f.source = 0 →
      (a.status = .exact → searches a.ident a.focal 0)
      ∧ (a.status = .between → searches a.ident a.focal 0)
      ∧ (a.status = .held → searches a.ident a.focal 0x0002)
      ∧ (a.status = .stale → s.sig.stale = .hold → searches a.ident a.focal 0x0004)
      ∧ (a.status = .stale → s.sig.stale = .pass →
        resolution s seq f = .ok (passEntry s.params seq f (some a.ident) a.focal 0x0024))
      ∧ (a.status = .missing → s.sig.missing = .refuse → resolution s seq f = .error .noLensData)
      ∧ (a.status = .missing → s.sig.missing = .pass →
        resolution s seq f = .ok (passEntry s.params seq f none 0 0x0028))))
  ∧ (∀ (p : Params) (seq : Count) (f : FrameFields) (id : LensId) (focal slot : Nat) (pr : Profile)
      (notes : BitVec 16),
    let e := correctedEntry p seq f id focal slot pr notes
    let ch := chooseStations focal pr.stations
    e.cx = 8 * ((p.wf : Int) - 1) + pr.trims.x ∧ e.cy = 8 * ((p.hf : Int) - 1) + pr.trims.y
    ∧ e.result =
        { ident := some id, focal, slot := some slot, stations := some (ch.lower, ch.upper), weight := ch.weight }
    ∧ e.notes = notes ||| (if ch.clamped then 0x0001 else 0) ||| (if curveSaturated pr ch then 0x0040 else 0)
        ||| (if fillClamped f then 0x0080 else 0)
    ∧ e.state = .waiting ∧ e.nextBand = 0 ∧ e.border = 0 ∧ e.rush = f.rush ∧ e.seq = seq ∧ e.geo = f.geo
    ∧ e.wl = f.wl)
  ∧ ∀ (p : Params) (seq : Count) (f : FrameFields) (id : Option LensId) (focal : Nat) (notes : BitVec 16),
      let e := passEntry p seq f id focal notes
      (∀ c, e.curve.get c = List.replicate 65 0)
      ∧ e.cx = 8 * ((p.wf : Int) - 1) ∧ e.cy = 8 * ((p.hf : Int) - 1)
      ∧ e.notes = notes ||| (if fillClamped f then 0x0080 else 0)
      ∧ e.state = .waiting ∧ e.nextBand = 0 ∧ e.border = 0 ∧ e.rush = f.rush ∧ e.seq = seq ∧ e.geo = f.geo
      ∧ e.wl = f.wl ∧ e.result = { ident := id, focal, slot := none, stations := none, weight := 0 }

/-- Sections 6.4 and 3.1: the checks 2 to 9 of a FRAME docket, the first that fails counting; and what its read's return
leads to: refused at that check, waiting in PLACE behind a full list, or resolved at once into an entry or a refusal.
During a cancel the new entry is handed on as CANCELLED. That it resolves within the command is log entry 12 (DEDUCED);
the count of free values is the model's own (log entry 9). -/
def Obligations.FrameDocketHandled : Prop :=
  (∀ (p : Params) (f : FrameFields),
    let g := f.geo
    let wo := g.w / g.k
    let ho := g.h / g.k
    let inSize := g.inPitch * (g.h - 1) + 2 * g.w
    let outSize := g.outPitch * (ho - 1) + 2 * wo
    let source : Prop := f.source = 0 ∨ f.source = 1
    let geometry : Prop := g.w % 16 = 0 ∧ 256 ≤ g.w ∧ g.w ≤ 8192 ∧ g.h % 16 = 0 ∧ 256 ≤ g.h ∧ g.h ≤ 6144
      ∧ g.ox + g.w ≤ p.wf ∧ g.oy + g.h ≤ p.hf
    let step : Prop := g.k = 1 ∨ g.k = 2 ∨ g.k = 4
    let pitch : Prop := g.inPitch % 64 = 0 ∧ 2 * g.w ≤ g.inPitch ∧ g.outPitch % 64 = 0 ∧ 2 * wo ≤ g.outPitch
    let align : Prop := ∀ c, g.inAddr.get c % 64 = 0 ∧ g.outAddr.get c % 64 = 0
    let window : Prop := ∀ c, p.low ≤ g.inAddr.get c ∧ g.inAddr.get c + inSize ≤ p.high
      ∧ p.low ≤ g.outAddr.get c ∧ g.outAddr.get c + outSize ≤ p.high
    let apart : Prop := ∀ (c c' : Channel) (a : Nat), g.outAddr.get c ≤ a → a < g.outAddr.get c + outSize →
      g.inAddr.get c' ≤ a → g.inAddr.get c' + inSize ≤ a
    let failing := firstFailure (frameChecks p f)
    (¬ source → failing = some .badSource)
    ∧ (source → ¬ geometry → failing = some .badGeometry)
    ∧ (source → geometry → ¬ step → failing = some .badStep)
    ∧ (source → geometry → step → ¬ pitch → failing = some .badPitch)
    ∧ (source → geometry → step → pitch → ¬ align → failing = some .badAlign)
    ∧ (source → geometry → step → pitch → align → f.wl = 0 → failing = some .badWhite)
    ∧ (source → geometry → step → pitch → align → f.wl ≠ 0 → ¬ window → failing = some .outOfWindow)
    ∧ (source → geometry → step → pitch → align → f.wl ≠ 0 → window → ¬ apart → failing = some .planeOverlap)
    ∧ (source → geometry → step → pitch → align → f.wl ≠ 0 → window → apart → failing = none))
  ∧ ∀ (s : State) (tag : Nat) (seq : Count) (bytes : List Byte), s.awaitsDocket tag seq bytes → docketKind bytes = 1 →
    let f := frameFields bytes
    let used := if f.source = 1 then s.free else s.free + 1
    (∀ r, firstFailure (frameChecks s.params f) = some r →
      exec (.frameDocket tag bytes) s = .next (s.answeredAtIntake tag
        { seq, kind := 1, rush := f.rush, outcome := .refused, reason := some r, notes := none, results := [] }))
    ∧ (firstFailure (frameChecks s.params f) = none →
      (8 ≤ s.work.length → exec (.frameDocket tag bytes) s = .next { s with
        port := s.portWithout tag, intake := { s.intake with phase := .place seq f } })
      ∧ (s.work.length < 8 →
        (∀ r, resolution s seq f = .error r →
          exec (.frameDocket tag bytes) s = .next { s.answeredAtIntake tag
            { seq, kind := 1, rush := f.rush, outcome := .refused, reason := some r, notes := none, results := [] }
            with free := used })
        ∧ (∀ e, resolution s seq f = .ok e →
          exec (.frameDocket tag bytes) s = .next { s with
            port := s.portWithout tag, work := s.work ++ [e], intake := { s.intake with phase := .idle }, free := used
            writer := { s.writer with waiting :=
              s.writer.waiting ++ (if s.win.cancel = none then [] else [.entry seq .cancelled]) } })))

/-- Sections 3.1 and 6.4: a frame in PLACE is resolved once the list has a place, with the sources as they then stand.
With a full list, or with no frame in PLACE, nothing happens (log entry 1). -/
def Obligations.PlacedFrameResolved : Prop :=
  (∀ (s : State) (seq : Count) (f : FrameFields), s.intake.phase = .place seq f →
    s.win.state = .run ∨ s.win.state = .hot → s.work.length < 8 →
    let used := if f.source = 1 then s.free else s.free + 1
    (∀ r, resolution s seq f = .error r →
      exec .resolveFrame s = .next { s with
        intake := { s.intake with phase := .writing }, free := used
        writer := { s.writer with waiting := s.writer.waiting ++ [.intake
          { seq, kind := 1, rush := f.rush, outcome := .refused, reason := some r, notes := none, results := [] }] } })
    ∧ (∀ e, resolution s seq f = .ok e →
      exec .resolveFrame s = .next { s with
        work := s.work ++ [e], intake := { s.intake with phase := .idle }, free := used
        writer := { s.writer with waiting :=
          s.writer.waiting ++ (if s.win.cancel = none then [] else [.entry seq .cancelled]) } }))
  ∧ (∀ s : State, 8 ≤ s.work.length → exec .resolveFrame s = .next s)
  ∧ ∀ s : State, (∀ seq f, s.intake.phase ≠ .place seq f) → exec .resolveFrame s = .next s

/-! ### The remap computation (chapter 4) -/

/-- R66, R69, R70: where an output pixel looks: its place on the full sensor, its offset scaled by 65536 + d, and the
source position. -/
def Obligations.SourcePosition : Prop :=
  (∀ (e : Entry) (p : Params) (c : Channel) (xo yo : Nat),
    let px : Int := 16 * e.geo.k * xo + 8 * ((e.geo.k : Int) - 1) + 16 * e.geo.ox
    let py : Int := 16 * e.geo.k * yo + 8 * ((e.geo.k : Int) - 1) + 16 * e.geo.oy
    let d := deltaAt (e.curve.get c) (normRadius p (px - e.cx) (py - e.cy))
    (∃ dxs dys : Int, IsNearestAway dxs ((px - e.cx) * (65536 + d)) 65536
      ∧ IsNearestAway dys ((py - e.cy) * (65536 + d)) 65536
      ∧ sourcePos e p c xo yo = (e.cx + dxs - 16 * e.geo.ox, e.cy + dys - 16 * e.geo.oy)
      ∧ (d = 0 → dxs = px - e.cx ∧ dys = py - e.cy))
    ∧ (EntryOk e → 49152 ≤ 65536 + d ∧ 65536 + d ≤ 81919)
    ∧ (1 ≤ e.geo.k → xo < e.geo.wo → e.geo.ox + e.geo.w ≤ p.wf → 0 ≤ px ∧ px ≤ 16 * (p.wf : Int) - 16)
    ∧ (1 ≤ e.geo.k → yo < e.geo.ho → e.geo.oy + e.geo.h ≤ p.hf → 0 ≤ py ∧ py ≤ 16 * (p.hf : Int) - 16))
  ∧ (∀ offset d : Int, scaled (-offset) d = -scaled offset d)
  ∧ sensorPos 1 0 7000 = 112000 ∧ sensorPos 1 0 4600 = 73600 ∧ sensorPos 2 1024 100 = 19592
  ∧ sensorPos 2 512 50 = 9800 ∧ sensorPos 4 0 0 = 24

/-- R68: a channel's delta, read from its curve of 65 values at u. R67: u itself, the squared offset from the centre in
units of 1/4096 of the squared half-diagonal, rounded down and at most 8192. -/
def Obligations.CurveReadAtRadius : Prop :=
  (∀ (p : Params) (dx dy : Int), normRadius p dx dy ≤ 8192
    ∧ (normRadius p dx dy : Int)
      = min 8192 ((dx ^ 2 + dy ^ 2) * 4096 / (64 * ((p.wf : Int) ^ 2 + (p.hf : Int) ^ 2))))
  ∧ ∀ (e : Entry) (c : Channel) (u : Nat), EntryOk e → u ≤ 8192 →
    let curve : List Int := match c with | .green => e.curve.g | .red => e.curve.r | .blue => e.curve.b
    let i := u / 128
    let f := u % 128
    i ≤ 64
    ∧ (i = 64 → u = 8192 ∧ f = 0 ∧ deltaAt (e.curve.get c) u = curve.getD 64 0)
    ∧ (i < 64 → (∃ q : Int, deltaAt (e.curve.get c) u = curve.getD i 0 + q
          ∧ IsNearestAway q ((curve.getD (i + 1) 0 - curve.getD i 0) * f) 128)
        ∧ min (curve.getD i 0) (curve.getD (i + 1) 0) ≤ deltaAt (e.curve.get c) u
        ∧ deltaAt (e.curve.get c) u ≤ max (curve.getD i 0) (curve.getD (i + 1) 0))
    ∧ (f = 0 → deltaAt (e.curve.get c) u = curve.getD i 0)
    ∧ -16384 ≤ deltaAt (e.curve.get c) u ∧ deltaAt (e.curve.get c) u ≤ 16383

/-- R71 to R75: sampling. A position is inside in a range closed at both ends; a pixel with a channel outside is a
border pixel, and counts once in its band's tally; the bilinear sample is the rounded mean of the four clamped
neighbours by sixteenths; the output sample is that value, clamped to the white level, or the fill value outside under
FILL. -/
def Obligations.OutputWithinWhite : Prop :=
  (∀ (g : Geometry) (qx qy : Int),
    inside g (qx, qy) = true ↔ 0 ≤ qx ∧ qx ≤ 16 * ((g.w : Int) - 1) ∧ 0 ≤ qy ∧ qy ≤ 16 * ((g.h : Int) - 1))
  ∧ (∀ (e : Entry) (p : Params) (xo yo : Nat),
    borderPixel e p xo yo = true ↔ ∃ c, inside e.geo (sourcePos e p c xo yo) = false)
  ∧ (∀ (e : Entry) (p : Params) (b : Nat),
    bandTally e p b = ∑ yo ∈ Finset.Ico (32 * b) (min (32 * b + 32) e.geo.ho),
      ((Finset.range e.geo.wo).filter fun xo => borderPixel e p xo yo = true).card)
  ∧ (∀ (g : Geometry) (input : Nat → Nat → Nat) (qx qy : Int), 1 ≤ g.w → 1 ≤ g.h →
    ∃ (ix iy : Int) (fx fy : Nat), qx = 16 * ix + fx ∧ qy = 16 * iy + fy ∧ fx ≤ 15 ∧ fy ≤ 15
      ∧ ∃ x0 x1 y0 y1 : Nat, (x0 : Int) = max 0 (min ((g.w : Int) - 1) ix)
        ∧ (x1 : Int) = max 0 (min ((g.w : Int) - 1) (ix + 1)) ∧ (y0 : Int) = max 0 (min ((g.h : Int) - 1) iy)
        ∧ (y1 : Int) = max 0 (min ((g.h : Int) - 1) (iy + 1))
        ∧ bilinear g input (qx, qy) = ((16 - fx) * (16 - fy) * input x0 y0 + fx * (16 - fy) * input x1 y0
            + (16 - fx) * fy * input x0 y1 + fx * fy * input x1 y1 + 128) / 256)
  ∧ ∀ (e : Entry) (p : Params) (c : Channel) (input : Nat → Nat → Nat) (xo yo : Nat),
    let q := sourcePos e p c xo yo
    let v := bilinear e.geo input q
    ((inside e.geo q = true ∨ e.edge = .edge) →
      outSample e p c input xo yo = if v ≤ e.wl then v else e.wl)
    ∧ (inside e.geo q = false → e.edge = .fill → outSample e p c input xo yo = e.fill.get c)
    ∧ (EntryOk e → outSample e p c input xo yo ≤ e.wl)
    ∧ ∀ lo hi : Nat, (∀ x y, lo ≤ input x y ∧ input x y ≤ hi) → lo ≤ v ∧ v ≤ hi

/-- R77: a frame with an all-zero curve looks at its own pixels, whatever its centre: no border pixels, and the output
samples of the table for k = 1, 2 and 4. -/
def Obligations.ZeroCurveFrames : Prop :=
  (∀ (e : Entry) (p : Params), (∀ c, e.curve.get c = List.replicate 65 0) →
    e.geo.k = 1 ∨ e.geo.k = 2 ∨ e.geo.k = 4 → e.geo.w % 16 = 0 → e.geo.h % 16 = 0 →
    (∀ (c : Channel) (xo yo : Nat), xo < e.geo.wo → yo < e.geo.ho →
      sourcePos e p c xo yo
          = (16 * e.geo.k * xo + 8 * ((e.geo.k : Int) - 1), 16 * e.geo.k * yo + 8 * ((e.geo.k : Int) - 1))
      ∧ inside e.geo (sourcePos e p c xo yo) = true ∧ borderPixel e p xo yo = false
      ∧ ∀ input : Nat → Nat → Nat,
          (e.geo.k = 1 → outSample e p c input xo yo = min (input xo yo) e.wl)
          ∧ (e.geo.k = 2 → outSample e p c input xo yo
              = min ((input (2 * xo) (2 * yo) + input (2 * xo + 1) (2 * yo) + input (2 * xo) (2 * yo + 1)
                  + input (2 * xo + 1) (2 * yo + 1) + 2) / 4) e.wl)
          ∧ (e.geo.k = 4 → outSample e p c input xo yo
              = min ((input (4 * xo + 1) (4 * yo + 1) + input (4 * xo + 2) (4 * yo + 1)
                  + input (4 * xo + 1) (4 * yo + 2) + input (4 * xo + 2) (4 * yo + 2) + 2) / 4) e.wl))
    ∧ ∀ b, bandTally e p b = 0)
  ∧ ∀ (p : Params) (seq : Count) (f : FrameFields) (id : Option LensId) (focal : Nat) (notes : BitVec 16) (c : Channel),
      (passEntry p seq f id focal notes).curve.get c = List.replicate 65 0

/-- Section 4.5: what a band reads, writes and tallies depends on the entry's frozen parts, the locked Wf and Hf and the
band's samples alone; not on notes, state, class, next band index, border count or result fields. -/
def Obligations.BandDependsOnFrozenParts : Prop :=
  ∀ (e e' : Entry) (p p' : Params) (cache : List CachedRow) (b : Nat),
    e.curve = e'.curve → e.cx = e'.cx → e.cy = e'.cy → e.geo = e'.geo → e.wl = e'.wl → e.edge = e'.edge →
    e.fill = e'.fill → p.wf = p'.wf → p.hf = p'.hf →
    bandReads e p b = bandReads e' p' b ∧ bandWrites e p cache b = bandWrites e' p' cache b
      ∧ bandTally e p b = bandTally e' p' b

/-- Sections 4.1 and 4.5: the rows a band needs of a channel are all those from the least to the greatest of its sampled
pixels' clamped neighbours; each is read, once and whole, inside the input planes, and nothing else is read; its writes
are the whole output rows of the band, row by row upward, red, green, blue, with their samples, inside the output
planes. -/
def Obligations.BandRowsAndAddresses : Prop :=
  ∀ (e : Entry) (p : Params) (b : Nat), 1 ≤ e.geo.h →
    (∀ yo, yo ∈ bandRows e.geo b ↔ 32 * b ≤ yo ∧ yo < 32 * b + 32 ∧ yo < e.geo.ho)
    ∧ (∀ (c : Channel) (xo yo r : Nat),
        let q := sourcePos e p c xo yo
        r ∈ neighbourRows e p c xo yo ↔ (inside e.geo q = true ∨ e.edge = .edge)
          ∧ ((r : Int) = max 0 (min ((e.geo.h : Int) - 1) (q.2 / 16))
            ∨ (r : Int) = max 0 (min ((e.geo.h : Int) - 1) (q.2 / 16 + 1))))
    ∧ (∀ c : Channel,
      let uses : Nat → Prop := fun r =>
        ∃ xo yo, yo ∈ bandRows e.geo b ∧ xo < e.geo.wo ∧ r ∈ neighbourRows e p c xo yo
      (∀ r, r ∈ neededRows e p c b ↔ (∃ lo, uses lo ∧ lo ≤ r) ∧ ∃ hi, uses hi ∧ r ≤ hi)
      ∧ ∀ r ∈ neededRows e p c b, r < e.geo.h
        ∧ e.geo.inAddr.get c + e.geo.inPitch * r + 2 * e.geo.w ≤ e.geo.inAddr.get c + e.geo.inSize)
    ∧ (bandReads e p b).Nodup
    ∧ (∀ x, x ∈ bandReads e p b ↔ ∃ (c : Channel) (r : Nat), r ∈ neededRows e p c b
        ∧ x = (.bandRead c r, .read (e.geo.inAddr.get c + e.geo.inPitch * r) (2 * e.geo.w)))
    ∧ (bandRows e.geo b).Pairwise (· < ·)
    ∧ ∀ cache : List CachedRow,
      let row : Channel → Nat → List Byte := fun c yo => (List.range e.geo.wo).flatMap fun xo =>
        let v := outSample e p c (cachedSample cache c) xo yo
        [BitVec.ofNat 8 v, BitVec.ofNat 8 (v / 256)]
      bandWrites e p cache b = (bandRows e.geo b).flatMap (fun yo => [Channel.red, .green, .blue].map fun c =>
        (.bandWrite c yo, .write [(e.geo.outAddr.get c + e.geo.outPitch * yo, row c yo)]))
      ∧ ∀ (c : Channel), ∀ yo ∈ bandRows e.geo b, (row c yo).length = 2 * e.geo.wo
        ∧ e.geo.outAddr.get c + e.geo.outPitch * yo + (row c yo).length ≤ e.geo.outAddr.get c + e.geo.outSize

/-! ### Scheduling and bands (chapter 5) -/

/-- Section 5.3: a pick takes the oldest WAITING RUSH entry, else the PARKED entry, else the oldest WAITING BURST
entry, and starts its band: its reads begin to be issued (log entry 13), or its writes where it needs no input row,
and it takes WARM while the warning condition holds (the bit of WARM: `AnswerTakenUp`). Where no pick may be made,
nothing happens (log entries 1 and 11). -/
def Obligations.PickOrder : Prop :=
  (∀ (s : State) (pre : List Entry) (e : Entry) (post : List Entry),
    s.engine = .free → s.win.state = .run → s.win.cancel = none →
    s.work = pre ++ e :: post → (∀ x ∈ s.work, x.state ≠ .running) →
    ((e.state = .waiting ∧ e.rush = true ∧ ∀ x ∈ pre, ¬ (x.state = .waiting ∧ x.rush = true))
      ∨ (e.state = .parked ∧ (∀ x ∈ s.work, ¬ (x.state = .waiting ∧ x.rush = true)) ∧ ∀ x ∈ pre, x.state ≠ .parked)
      ∨ (e.state = .waiting ∧ e.rush = false ∧ (∀ x ∈ s.work, x.state = .waiting ∧ x.rush = false)
          ∧ pre = [])) →
    let e' : Entry := { e with
      state := .running, notes := if s.thermal.warning then addNote e.notes .warm else e.notes }
    StartsBand (exec .pick s) { s with work := pre ++ e' :: post } e')
  ∧ ∀ s : State, (s.engine ≠ .free ∨ s.win.state ≠ .run ∨ s.win.cancel ≠ none ∨ ∀ x ∈ s.work, x.state = .running) →
      exec .pick s = .next s

/-- Sections 4.1 and 4.5: a band's read returns into the band cache. More of its reads are issued where some are not
issued yet (log entry 13); once the last has returned, the band's samples and tally are computed and its output writes
begin to be issued. In any other phase the reply is discarded. -/
def Obligations.BandReadReturned : Prop :=
  ∀ (s : State) (tag : Nat) (c : Channel) (row : Nat) (bytes : List Byte),
    s.awaitsRead tag (.bandRead c row) bytes.length →
    let returned := exec (.bandReadReturn tag bytes) s
    let t : State := { s with port := s.portWithout tag }
    ((∀ cache tally rest, s.engine ≠ .band cache tally rest) → returned = .next t)
    ∧ ∀ (cache : List CachedRow) (tally : Nat) (rest : List (Use × Access)), s.engine = .band cache tally rest →
      let cache' := cache ++ [{ channel := c, row, samples := rowSamples bytes }]
      (rest ≠ [] → IssuesSome returned t cache' tally rest)
      ∧ (rest = [] → (∃ r ∈ s.port.reqs, r.tag ≠ tag ∧ r.live = true ∧ r.use.isBandRead = true) →
        returned = .next { t with engine := .band cache' tally [] })
      ∧ (rest = [] → (∀ r ∈ s.port.reqs, r.tag ≠ tag → r.live = true → r.use.isBandRead = false) →
        ∀ e, runningEntry s.work = some e → 32 * e.nextBand < e.geo.ho →
        IssuesSome returned t cache' (bandTally e s.params e.nextBand) (bandWrites e s.params cache' e.nextBand))

/-- Sections 5.4 and 5.5: an output write is acknowledged. More of the band's writes are issued where some are not
issued yet (log entry 13); the last acknowledgement makes the band done, and the boundary decides: a cancel, the
frame's last band, a park (with the pick it leads to), or the next band at once. In any other phase, DRAIN among them,
the request just ends. The bits of BORDER, PARKED and WARM are those of `AnswerTakenUp`. -/
def Obligations.BandDone : Prop :=
  ∀ (s : State) (tag : Nat) (c : Channel) (row : Nat), s.awaitsWrite tag (.bandWrite c row) →
    let acked := exec (.bandWriteAck tag) s
    let t : State := { s with port := s.portWithout tag }
    ((∀ cache tally rest, s.engine ≠ .band cache tally rest) → acked = .next t)
    ∧ ∀ (cache : List CachedRow) (tally : Nat) (rest : List (Use × Access)), s.engine = .band cache tally rest →
    (rest ≠ [] → IssuesSome acked t cache tally rest)
    ∧ (rest = [] → (∃ r ∈ s.port.reqs, r.tag ≠ tag ∧ r.live = true ∧ r.use.isBandWrite = true) → acked = .next t)
    ∧ (rest = [] → (∀ r ∈ s.port.reqs, r.tag ≠ tag → r.live = true → r.use.isBandWrite = false) →
      ∀ (pre : List Entry) (e : Entry) (post : List Entry),
      s.work = pre ++ e :: post → e.state = .running → (∀ x ∈ pre ++ post, x.state ≠ .running) →
      let e' : Entry := { e with
        nextBand := e.nextBand + 1, border := e.border + tally
        notes := if 0 < e.border + tally then addNote e.notes .border else e.notes }
      (s.win.cancel ≠ none → acked = .next { t with
        work := pre ++ e' :: post, engine := .outcome
        writer := { s.writer with waiting := s.writer.waiting ++ [.entry e.seq .cancelled] } })
      ∧ (s.win.cancel = none → e.nextBand + 1 = e.geo.bands → acked = .next { t with
        work := pre ++ e' :: post, engine := .outcome
        writer := { s.writer with waiting := s.writer.waiting ++ [.entry e.seq .finished] } })
      ∧ (s.win.cancel = none → e.nextBand + 1 ≠ e.geo.bands → e.rush = false →
        (∃ x ∈ pre ++ post, x.state = .waiting ∧ x.rush = true) →
        acked = exec .pick { t with
          engine := .free, work := pre ++ { e' with state := .parked, notes := addNote e'.notes .parked } :: post })
      ∧ (s.win.cancel = none → e.nextBand + 1 ≠ e.geo.bands →
        (e.rush = true ∨ ∀ x ∈ pre ++ post, ¬ (x.state = .waiting ∧ x.rush = true)) →
        let e'' : Entry := { e' with notes := if s.thermal.warning then addNote e'.notes .warm else e'.notes }
        StartsBand acked { t with work := pre ++ e'' :: post } e''))

/-- Sections 4.5, 5.2 and 5.6: a bus error on a band's request fails the band: MEMORY is latched, what it has not
issued is not issued, replies to its reads are ignored from then on, and the frame is to be written ABANDONED with
MEMORY_FAULT, at once or after DRAIN. In any other phase the request just ends. DRAIN ends, by a command of its own
(log entry 23), when no write of the band is outstanding. -/
def Obligations.BandFailure : Prop :=
  (∀ (s : State) (tag : Nat) (c : Channel) (row length : Nat),
    (s.awaitsRead tag (.bandRead c row) length ∨ s.awaitsWrite tag (.bandWrite c row)) →
    ((∀ cache tally rest, s.engine ≠ .band cache tally rest) →
      exec (.bandBusError tag) s = .next { s with port := s.portWithout tag })
    ∧ (∀ (cache : List CachedRow) (tally : Nat) (rest : List (Use × Access)) (e : Entry),
        s.engine = .band cache tally rest → runningEntry s.work = some e →
      let failed : State := { s with
        port := { s.port with reqs := (s.portWithout tag).reqs.map fun r =>
          if r.use.isBandRead then { r with live := false } else r }
        sig := { s.sig with
          latches := { s.sig.latches with memory := true }
          flags := { s.sig.flags with fault := s.sig.flags.fault || !s.sig.latches.memory } } }
      ((∃ r ∈ s.port.reqs, r.tag ≠ tag ∧ r.live = true ∧ r.use.isBandWrite = true) →
        exec (.bandBusError tag) s = .next { failed with engine := .drain (.abandoned .memoryFault) })
      ∧ ((∀ r ∈ s.port.reqs, r.tag ≠ tag → r.live = true → r.use.isBandWrite = false) →
        exec (.bandBusError tag) s = .next { failed with
          engine := .outcome
          writer := { s.writer with
            waiting := s.writer.waiting ++ [.entry e.seq (.abandoned .memoryFault)] } })))
  ∧ ∀ (s : State) (v : Verdict) (e : Entry), s.engine = .drain v → runningEntry s.work = some e →
      ((∃ r ∈ s.port.reqs, r.live = true ∧ r.use.isBandWrite = true) → exec .drainEnd s = .next s)
      ∧ ((∀ r ∈ s.port.reqs, r.live = true → r.use.isBandWrite = false) →
        exec .drainEnd s = .next { s with
          engine := .outcome, writer := { s.writer with waiting := s.writer.waiting ++ [.entry e.seq v] } })

/-- Sections 4.5, 1.3, 6.8 and 9.3: a request that times out ends as the bus error of its own kind does; a docket read's
timeout in RUN or HOT enters HALTED. A name that no request bears changes nothing (log entry 1). -/
def Obligations.TimeoutIsBusError : Prop :=
  (∀ (s : State) (tag : Nat) (r : Request), s.port.find tag = some r →
    exec (.memoryRequestTimeout tag) s = (match r.use with
      | .setupBlock => exec (.setupReadFault tag) s
      | .docket => exec (.exchangeFault tag) s
      | .image _ => exec (.imageReadFault tag) s
      | .bandRead _ _ => exec (.bandBusError tag) s
      | .bandWrite _ _ => exec (.bandBusError tag) s
      | .answer _ => exec (.exchangeFault tag) s
      | .report _ => exec (.exchangeFault tag) s))
  ∧ (∀ (s : State) (tag : Nat), s.awaitsRead tag .docket 128 → s.win.state = .run ∨ s.win.state = .hot →
    ∃ t, exec (.memoryRequestTimeout tag) s = .next t ∧ t.win.state = .halted ∧ t.work = [] ∧ t.engine = .free
      ∧ t.sig.flags.error = true ∧ t.intake.phase = .idle)
  ∧ ∀ (s : State) (tag : Nat), s.port.find tag = none → exec (.memoryRequestTimeout tag) s = .next s

/-! ### Intake and the control dockets (chapters 1, 6 and 7) -/

/-- Sections 6.3 and 9.5: taking a docket and marking one in a cancel; where the conditions do not hold, nothing
happens (log entry 1). The kind 0 of a marked docket's answer is the model's choice (log entry 35). -/
def Obligations.DocketsTakenAndMarked : Prop :=
  (∀ s : State, (s.win.state = .run ∨ s.win.state = .hot) → s.intake.phase = .idle → s.intake.install = false →
    s.win.cancel = none → s.intake.taken ≠ s.win.post →
    ∃ t, exec .takeDocket s = .next t
      ∧ (∀ i < 64, t.intake.map.getLsbD i = (s.intake.map.getLsbD i && decide (i ≠ s.intake.taken.toNat % 64)))
      ∧ t = { s with
          intake := { s.intake with
            taken := s.intake.taken + 1, map := t.intake.map, phase := .reading s.intake.taken }
          port :=
            { reqs := s.port.reqs ++ [{
                tag := s.port.nextTag, use := .docket, live := true
                access := .read (s.win.xbase.toNat + 4096 + 256 * (s.intake.taken.toNat % 64)) 128 }]
              nextTag := s.port.nextTag + 1 } })
  ∧ (∀ s : State, (s.win.state = .setup ∨ s.win.state = .halted ∨ s.intake.phase ≠ .idle ∨ s.intake.install = true
      ∨ s.win.cancel ≠ none ∨ s.intake.taken = s.win.post) → exec .takeDocket s = .next s)
  ∧ (∀ (s : State) (c : Cancel), (s.win.state = .run ∨ s.win.state = .hot) → s.intake.phase = .idle →
    s.win.cancel = some c → s.intake.taken ≠ c.boundary →
    ∃ t, exec .markDocket s = .next t
      ∧ (∀ i < 64, t.intake.map.getLsbD i = (s.intake.map.getLsbD i && decide (i ≠ s.intake.taken.toNat % 64)))
      ∧ t = { s with
          intake := { s.intake with taken := s.intake.taken + 1, map := t.intake.map, phase := .writing }
          writer := { s.writer with waiting := s.writer.waiting ++ [.intake
            { seq := s.intake.taken, kind := 0, rush := false, outcome := .cancelled, reason := none, notes := none
              results := [] }] } })
  ∧ ∀ s : State, (s.win.cancel = none ∨ s.intake.phase ≠ .idle
      ∨ ∃ c, s.win.cancel = some c ∧ s.intake.taken = c.boundary) → exec .markDocket s = .next s

/-- Section 1.3, steps 1 to 4: an INSTALL docket is refused for its slot field, for want of an EMPTY slot, for its
length or for its extent; otherwise its slot becomes LOADING and the reads of its image, which make up the extent, begin
to be issued. Into how many reads the extent is cut, and how many are issued at once, is open; that they go upward is
the model's choice (log entry 14). -/
def Obligations.InstallDocketChecked : Prop :=
  ∀ (s : State) (tag : Nat) (seq : Count) (bytes : List Byte), s.awaitsDocket tag seq bytes → docketKind bytes = 2 →
    let refused : Reason → State := fun r =>
      let u := s.answeredAtIntake tag
        { seq, kind := 2, rush := false, outcome := .refused, reason := some r, notes := none
          results := [(128, [0xFF, 0xFF, 0xFF])] }
      { u with intake := { u.intake with install := true } }
    (12 ≤ slotField bytes → slotField bytes ≠ 15 → exec (.installDocket tag bytes) s = .next (refused .badSlot))
    ∧ (slotField bytes = 15 → (∀ x ∈ s.slots, x ≠ .empty) →
      exec (.installDocket tag bytes) s = .next (refused .noFreeSlot))
    ∧ ∀ i : Nat, ((slotField bytes < 12 ∧ i = slotField bytes)
        ∨ (slotField bytes = 15 ∧ s.slots[i]? = some .empty ∧ ∀ j < i, s.slots[j]? ≠ some .empty)) →
      ((imageLength bytes < 36 ∨ 1072 < imageLength bytes) →
        exec (.installDocket tag bytes) s = .next (refused .imageLength))
      ∧ (36 ≤ imageLength bytes → imageLength bytes ≤ 1072 →
        ((imageAddr bytes < s.params.low ∨ s.params.high < imageAddr bytes + imageLength bytes) →
          exec (.installDocket tag bytes) s = .next (refused .outOfWindow))
        ∧ (s.params.low ≤ imageAddr bytes → imageAddr bytes + imageLength bytes ≤ s.params.high →
          ∃ lengths : List Nat, (∀ k ∈ lengths, 1 ≤ k) ∧ lengths.sum = imageLength bytes
            ∧ ReadsSome (exec (.installDocket tag bytes) s)
              { s with
                slots := s.slots.set i .loading, intake := { s.intake with install := true }
                port := s.portWithout tag }
              seq i (List.replicate (imageLength bytes) 0)
              ((List.range lengths.length).map fun j =>
                let offset := (lengths.take j).sum
                (.image offset, .read (imageAddr bytes + offset) (lengths.getD j 0)))))

/-- Section 1.3, steps 4 to 10: the checks of an image's bytes, the first that fails counting, with the station and knot
it names. A read of the image returns: its bytes join the image at their offset, and more reads are issued where some
are not issued yet (log entry 14), each of which returns as this command (log entry 15). How an install in progress
ends: once the last read has returned, with a failed check of the image, an identity another READY slot holds, or a
READY slot; or by a bus error on a read of the image, which leaves the reads not issued unissued and those outstanding
ignored. Where no install is in progress a read's reply just ends it. -/
def Obligations.InstallEnds : Prop :=
  (∀ b : List Byte,
    let pr := imageProfile b
    let count := imageStations b
    let layout : Prop := imageLayout b = 1 ∧ IdentOk pr.ident
    let counted : Prop := 1 ≤ count ∧ count ≤ 8
    let fits : Nat → Prop := fun j => stationOffset b j + 4 ≤ b.length ∧ stationOffset b (j + 1) ≤ b.length
    let walked : Prop := (∀ j < count, fits j) ∧ stationOffset b count = b.length
    let stationOk : Nat → Prop := fun j =>
      FocalOk pr.stations j ∧ ∃ x, pr.stations[j]? = some x ∧ 2 ≤ x.knots.length ∧ x.knots.length ≤ 16
        ∧ (∀ i < x.knots.length, KnotOrdered x.knots i) ∧ ∀ k ∈ x.knots, KnotInRange k
    let failing := imageViolation b
    pr.stations.length = count
    ∧ (¬ layout → failing = some { reason := .badLayout, station := none, knot := none })
    ∧ (layout → ¬ counted → failing = some { reason := .badStationCount, station := none, knot := none })
    ∧ (layout → counted →
      (∀ j < count, (∀ i < j, fits i) → ¬ fits j →
        failing = some { reason := .imageLength, station := some j, knot := none })
      ∧ ((∀ j < count, fits j) → stationOffset b count ≠ b.length →
        failing = some { reason := .imageLength, station := none, knot := none }))
    ∧ (layout → counted → walked → ¬ TrimsOk pr.trims →
      failing = some { reason := .trimRange, station := none, knot := none })
    ∧ (layout → counted → walked → TrimsOk pr.trims →
      ∀ (j : Nat) (x : Station), pr.stations[j]? = some x → (∀ i < j, stationOk i) →
        (¬ FocalOk pr.stations j → failing = some { reason := .focalOrder, station := some j, knot := none })
        ∧ (FocalOk pr.stations j → (x.knots.length < 2 ∨ 16 < x.knots.length) →
          failing = some { reason := .badKnotCount, station := some j, knot := none })
        ∧ (FocalOk pr.stations j → 2 ≤ x.knots.length → x.knots.length ≤ 16 →
          (∀ i < x.knots.length, (∀ h < i, KnotOrdered x.knots h) → ¬ KnotOrdered x.knots i →
            failing = some { reason := .knotOrder, station := some j, knot := some i })
          ∧ ((∀ i < x.knots.length, KnotOrdered x.knots i) → ∀ (i : Nat) (k : Knot), x.knots[i]? = some k →
            (∀ h < i, ∀ k', x.knots[h]? = some k' → KnotInRange k') → ¬ KnotInRange k →
            failing = some { reason := .valueRange, station := some j, knot := some i })))
    ∧ (layout → counted → walked → TrimsOk pr.trims → (∀ j < count, stationOk j) → failing = none))
  ∧ (∀ (s : State) (tag offset : Nat) (bytes : List Byte), s.awaitsRead tag (.image offset) bytes.length →
    (∀ seq slot image unissued, s.intake.phase ≠ .executing seq slot image unissued) →
    exec (.installValidation tag bytes) s = .next { s with port := s.portWithout tag }
    ∧ exec (.imageReadFault tag) s = .next { s with port := s.portWithout tag })
  ∧ ∀ (s : State) (tag offset : Nat) (seq : Count) (slot : Nat) (before : List Byte) (unissued : List (Use × Access))
      (bytes : List Byte),
    s.intake.phase = .executing seq slot before unissued → s.awaitsRead tag (.image offset) bytes.length →
    let returned := exec (.installValidation tag bytes) s
    let image := before.take offset ++ bytes ++ before.drop (offset + bytes.length)
    let t : State := { s with port := s.portWithout tag }
    let last : Prop := unissued = [] ∧ ∀ r ∈ s.port.reqs, r.tag ≠ tag → r.live = true → r.use.isImage = false
    let answer : DocketOutcome → Option Reason → Option (BitVec 16) → Option Nat → Option Nat → Answer :=
      fun outcome reason notes station knot =>
        { seq, kind := 2, rush := false, outcome, reason, notes
          results := [(128, [BitVec.ofNat 8 slot, BitVec.ofNat 8 (station.getD 255), BitVec.ofNat 8 (knot.getD 255)])] }
    (unissued ≠ [] → ReadsSome returned t seq slot image unissued)
    ∧ (unissued = [] → (∃ r ∈ s.port.reqs, r.tag ≠ tag ∧ r.live = true ∧ r.use.isImage = true) →
      returned = .next { t with intake := { s.intake with phase := .executing seq slot image [] } })
    ∧ (last → ∀ v, imageViolation image = some v →
      returned = .next { s.answeredAtIntake tag
        (answer .refused (some v.reason) none v.station v.knot) with slots := s.slots.set slot .empty })
    ∧ (last → imageViolation image = none →
      ((∃ pr, Slot.ready pr ∈ s.slots ∧ pr.ident = (imageProfile image).ident) →
        returned = .next { s.answeredAtIntake tag
          (answer .refused (some .duplicateLens) none none none) with slots := s.slots.set slot .empty })
      ∧ ((∀ pr, Slot.ready pr ∈ s.slots → pr.ident ≠ (imageProfile image).ident) →
        returned = .next { s.answeredAtIntake tag
          (answer .done none (some 0) none none) with slots := s.slots.set slot (.ready (imageProfile image)) }))
    ∧ exec (.imageReadFault tag) s = .next { s.answeredAtIntake tag
        (answer .refused (some .memoryFault) none none none) with
        port := { s.port with reqs := (s.portWithout tag).reqs.map fun r =>
          if r.use.isImage then { r with live := false } else r }
        slots := s.slots.set slot .empty
        sig := { s.sig with
          latches := { s.sig.latches with memory := true }
          flags := { s.sig.flags with fault := s.sig.flags.fault || !s.sig.latches.memory } } }

/-- Sections 1.1, 1.3 and 6.9: the image of any profile a READY slot may hold passes every check of an install, and what
the part reads from it is that profile. -/
def Obligations.ProfileImageRoundTrip : Prop :=
  ∀ pr : Profile, ProfileOk pr →
    imageViolation (imageBytes pr) = none ∧ imageProfile (imageBytes pr) = pr
    ∧ (imageBytes pr).length = 16 + (pr.stations.map fun s => 4 + 8 * s.knots.length).sum
    ∧ 36 ≤ (imageBytes pr).length ∧ (imageBytes pr).length ≤ 1072

/-- Sections 1.1 and 1.3: an image that passes every check holds a profile within all the limits of a READY slot, and is
as long as its records imply. -/
def Obligations.AcceptedImagesHoldProfiles : Prop :=
  ∀ b : List Byte, imageViolation b = none →
    ProfileOk (imageProfile b)
    ∧ b.length = 16 + ((imageProfile b).stations.map fun s => 4 + 8 * s.knots.length).sum

/-- Sections 1.4 and 6.3: a DROP docket and a docket of unknown kind. That a LOADING slot is not READY to a DROP,
which no run shows, is log entry 17 (DEDUCED). -/
def Obligations.DropAndUnknownKind : Prop :=
  ∀ (s : State) (tag : Nat) (seq : Count) (bytes : List Byte), s.awaitsDocket tag seq bytes →
    let dropRefused : Reason → Answer := fun r =>
      { seq, kind := 3, rush := false, outcome := .refused, reason := some r, notes := none
        results := [(128, [0, 0, 0])] }
    (docketKind bytes = 3 →
      (12 ≤ slotField bytes → exec (.dropDocket tag bytes) s = .next (s.answeredAtIntake tag (dropRefused .badSlot)))
      ∧ (slotField bytes < 12 →
        ((∀ pr, s.slots[slotField bytes]? ≠ some (.ready pr)) →
          exec (.dropDocket tag bytes) s = .next (s.answeredAtIntake tag (dropRefused .slotEmpty)))
        ∧ ∀ pr, s.slots[slotField bytes]? = some (.ready pr) →
          exec (.dropDocket tag bytes) s = .next { s.answeredAtIntake tag
            { seq, kind := 3, rush := false, outcome := .done, reason := none, notes := some 0
              results := [(128, [BitVec.ofNat 8 pr.ident.model, BitVec.ofNat 8 (pr.ident.model / 256),
                BitVec.ofNat 8 pr.ident.ext])] }
            with slots := s.slots.set (slotField bytes) .empty }))
    ∧ (docketKind bytes = 0 ∨ 5 < docketKind bytes →
      exec (.badKindDocket tag bytes) s = .next (s.answeredAtIntake tag
        { seq, kind := docketKind bytes, rush := false, outcome := .refused, reason := some .badKind, notes := none
          results := [] }))

/-- R19, R20 (with the refusals of section 1.5): a NUDGE adds to the slot's trims and holds the sums at their limits, a
SET replaces them, clamped; AT_LIMIT and DONE_NOTED where a value was held. A slot field out of range and a slot that is
not READY, a LOADING one included (log entry 17), are refused whatever the mode. -/
def Obligations.TrimDockets : Prop :=
  (∀ (s : State) (tag : Nat) (seq : Count) (bytes : List Byte) (pr : Profile),
    s.awaitsDocket tag seq bytes → docketKind bytes = 4 → slotField bytes < 12 →
    s.slots[slotField bytes]? = some (.ready pr) →
    let v := trimValues bytes
    let held : Trims → Trims := fun a =>
      { x := max (-1023) (min 1023 a.x), y := max (-1023) (min 1023 a.y), scale := max (-255) (min 255 a.scale) }
    let applied : Trims → State := fun a =>
      { s.answeredAtIntake tag
          { seq, kind := 4, rush := false, reason := none
            outcome := if held a = a then .done else .doneNoted
            notes := some (if held a = a then 0 else 0x0800)
            results := [(128, signedBytes (held a).x ++ signedBytes (held a).y ++ signedBytes (held a).scale)] }
        with slots := s.slots.set (slotField bytes) (.ready { pr with trims := held a }) }
    let refused : Reason → State := fun r => s.answeredAtIntake tag
      { seq, kind := 4, rush := false, outcome := .refused, reason := some r, notes := none
        results := [(128, signedBytes pr.trims.x ++ signedBytes pr.trims.y ++ signedBytes pr.trims.scale)] }
    (trimMode bytes = 0 →
      ((|v.x| ≤ 64 ∧ |v.y| ≤ 64 ∧ |v.scale| ≤ 64) →
        exec (.trimNudge tag bytes) s
          = .next (applied { x := pr.trims.x + v.x, y := pr.trims.y + v.y, scale := pr.trims.scale + v.scale }))
      ∧ ((64 < |v.x| ∨ 64 < |v.y| ∨ 64 < |v.scale|) → exec (.trimNudge tag bytes) s = .next (refused .trimRange)))
    ∧ (trimMode bytes = 1 → exec (.trimSet tag bytes) s = .next (applied v))
    ∧ (1 < trimMode bytes → exec (.badTrimMode tag bytes) s = .next (refused .badTrimMode)))
  ∧ ∀ (s : State) (tag : Nat) (seq : Count) (bytes : List Byte), s.awaitsDocket tag seq bytes → docketKind bytes = 4 →
    let command : Instr :=
      if trimMode bytes = 0 then .trimNudge tag bytes
      else if trimMode bytes = 1 then .trimSet tag bytes else .badTrimMode tag bytes
    let refused : Reason → State := fun r => s.answeredAtIntake tag
      { seq, kind := 4, rush := false, outcome := .refused, reason := some r, notes := none
        results := [(128, [0, 0, 0, 0, 0, 0])] }
    (12 ≤ slotField bytes → exec command s = .next (refused .badSlot))
    ∧ (slotField bytes < 12 → (∀ pr, s.slots[slotField bytes]? ≠ some (.ready pr)) →
      exec command s = .next (refused .slotEmpty))

/-- Sections 7.2 and 7.3: a change of N acts on the counter at once; an OPTIONS docket applies all its present fields
where each is valid, and is otherwise refused with the index of the first invalid one, N becoming 0 where that is
GROUPING. -/
def Obligations.OptionsDocketHandled : Prop :=
  (∀ (g : Signalling) (n : Nat),
    (0 < n → n ≤ g.counter →
      g.setGrouping n = { g with grouping := n, counter := 0, flags := { g.flags with done := true } })
    ∧ (0 < n → g.counter < n → g.setGrouping n = { g with grouping := n })
    ∧ (n = 0 → 0 < g.counter →
      g.setGrouping n = { g with grouping := n, counter := 0, flags := { g.flags with done := true } })
    ∧ (n = 0 → g.counter = 0 → g.setGrouping n = { g with grouping := n }))
  ∧ ∀ (s : State) (tag : Nat) (seq : Count) (bytes : List Byte),
      s.awaitsDocket tag seq bytes → docketKind bytes = 5 →
      let named : Nat → Bool := fun i => (fieldAt bytes 16 1).testBit i
      let value : Nat → Nat := fun i => fieldAt bytes (17 + i) 1
      let valid : Nat → Prop := fun i =>
        (i = 0 ∧ value 0 ∈ [0, 1, 2, 4, 8, 16]) ∨ (i = 1 ∧ value 1 ≤ 1) ∨ (i = 2 ∧ value 2 ≤ 1) ∨ i = 3
      ((∀ i < 4, named i = true → valid i) →
        exec (.optionsDocket tag bytes) s = .next { s.answeredAtIntake tag
          { seq, kind := 5, rush := false, outcome := .done, reason := none, notes := some 0
            results := [(128, [0xFF])] } with
          sig := { (if named 0 then s.sig.setGrouping (value 0) else s.sig) with
            missing := if named 1 then (if value 1 = 1 then .refuse else .pass) else s.sig.missing
            stale := if named 2 then (if value 2 = 1 then .pass else .hold) else s.sig.stale
            mask := if named 3 then
                { lensQuiet := (value 3).testBit 0, lensChange := (value 3).testBit 1
                  heatWarn := (value 3).testBit 2 }
              else s.sig.mask } })
      ∧ ∀ i < 4, named i = true → ¬ valid i → (∀ j < i, named j = true → valid j) →
        exec (.optionsDocket tag bytes) s = .next { s.answeredAtIntake tag
          { seq, kind := 5, rush := false, outcome := .refused, reason := some .badOption, notes := none
            results := [(128, [BitVec.ofNat 8 i])] } with
          sig := if i = 0 then s.sig.setGrouping 0 else s.sig }

/-! ### Answers, retirement, report block (chapters 5 and 6) -/

/-- Sections 5.5 and 6.5: the free outcome writer takes up the next answer and begins its writes: reason and notes,
result fields, outcome byte; an entry's outcome, notes, result fields and completion stamp are those of the moment. That
the first alone is issued, and each other after the acknowledgement of the one before it, is log entry 31 (DEDUCED).
The reason and outcome codes and the bits of the notes are those of R131's tables. -/
def Obligations.AnswerTakenUp : Prop :=
  (∀ x ∈ [(Reason.badSlot, 1), (.noFreeSlot, 2), (.imageLength, 3), (.outOfWindow, 4), (.memoryFault, 5),
      (.badLayout, 6), (.badStationCount, 7), (.trimRange, 8), (.focalOrder, 9), (.badKnotCount, 10), (.knotOrder, 11),
      (.valueRange, 12), (.duplicateLens, 13), (.slotEmpty, 14), (.badTrimMode, 15), (.badOption, 16), (.badKind, 17),
      (.badSource, 18), (.badGeometry, 19), (.badStep, 20), (.badPitch, 21), (.badAlign, 22), (.badWhite, 23),
      (.planeOverlap, 24), (.badFocal, 25), (.noLensData, 26), (.noProfile, 27), (.overheat, 28)], x.1.code = x.2)
  ∧ (∀ x ∈ [(DocketOutcome.done, 1), (.doneNoted, 2), (.refused, 3), (.abandoned, 4), (.cancelled, 5)], x.1.code = x.2)
  ∧ (∀ x ∈ [(Note.focalClamped, 0), (.lensHeld, 1), (.lensStale, 2), (.noLensData, 3), (.noProfile, 4),
      (.uncorrected, 5), (.curveSaturated, 6), (.fillClamped, 7), (.warm, 8), (.border, 9), (.parked, 10),
      (.atLimit, 11)],
    ∀ notes : BitVec 16, hasNote notes x.1 = notes.getLsbD x.2
      ∧ ∀ i, (addNote notes x.1).getLsbD i = (notes.getLsbD i || decide (i = x.2)))
  ∧ (∀ (s : State) (next : WaitingAnswer) (rest : List WaitingAnswer), s.win.state = .run ∨ s.win.state = .hot →
    s.writer.inHand = none → s.writer.waiting = next :: rest →
    let takenUp : Answer → Bool → State := fun a ofEntry =>
      let base := s.win.xbase.toNat + 4096 + 256 * (a.seq.toNat % 64)
      let writes : List (Use × Access) :=
          (if a.reason = none ∧ a.notes = none then [] else [(.answer .reasonNotes, .write (
            (match a.reason with | some r => [(base + 5, [BitVec.ofNat 8 r.code])] | none => [])
            ++ (match a.notes with
              | some n => [(base + 6, [n.extractLsb' 0 8, n.extractLsb' 8 8])] | none => [])))])
          ++ (if a.results = [] then [] else
            [(.answer .results, .write (a.results.map fun x => (base + x.1, x.2)))])
          ++ [(.answer .outcome, .write [(base + 4, [BitVec.ofNat 8 a.outcome.code])])]
      { s with
        writer :=
          { inHand := some { answer := a, ofEntry, stage := .writing, metPost := false, unissued := writes.drop 1 }
            waiting := rest }
        port := s.port.issueAll (writes.take 1) }
    (∀ a, next = .intake a → exec .outcomeTakeUp s = .next (takenUp a false))
    ∧ ∀ (seq : Count) (v : Verdict) (e : Entry), next = .entry seq v → s.work.find? (fun x => x.seq = seq) = some e →
      ∃ a : Answer, exec .outcomeTakeUp s = .next (takenUp a true)
        ∧ a.seq = seq ∧ a.kind = 1 ∧ a.rush = e.rush ∧ a.notes = some e.notes
        ∧ a.outcome = (match v with
            | .finished => if e.notes = 0 then .done else .doneNoted
            | .abandoned _ => .abandoned
            | .cancelled => .cancelled)
        ∧ a.reason = (match v with | .abandoned r => some r | _ => none)
        ∧ ∃ fixed tail : List Byte, a.results = [(128, fixed), (140, tail)]
          ∧ fixed.length = 10 ∧ tail.length = 8
          ∧ fieldAt fixed 0 2 = (e.result.ident.getD { model := 0, ext := 0 }).model % 65536
          ∧ fieldAt fixed 2 1 = (e.result.ident.getD { model := 0, ext := 0 }).ext % 256
          ∧ fieldAt fixed 3 1 = (e.result.slot.getD 255) % 256
          ∧ fieldAt fixed 4 2 = e.result.focal % 65536
          ∧ fieldAt fixed 6 1 = ((e.result.stations.map Prod.fst).getD 255) % 256
          ∧ fieldAt fixed 7 1 = ((e.result.stations.map Prod.snd).getD 255) % 256
          ∧ fieldAt fixed 8 1 = e.result.weight % 256 ∧ fieldAt fixed 9 1 = e.nextBand % 256
          ∧ fieldAt tail 0 4 = s.tap.timebase.toNat ∧ fieldAt tail 4 4 = e.border % 4294967296)
  ∧ ∀ s : State, (s.win.state = .setup ∨ s.win.state = .halted ∨ s.writer.inHand ≠ none ∨ s.writer.waiting = []) →
      exec .outcomeTakeUp s = .next s

/-- Sections 5.5, 6.5 and 6.6: a write of the answer before the outcome byte's is acknowledged (by this command, log
entry 15), and the next is issued (log entry 31). The outcome byte's write is acknowledged: the docket's flag is set,
the retire check made, an entry leaves the list and frees the engine that served it, and the signalling update waits
for a report block write where the check advanced; whether it advanced the retired count to equal POST is noted for the
update. A report block write asked for stands as the pending flag (log entry 8). -/
def Obligations.AnswerAcknowledged : Prop :=
  (∀ (s : State) (tag : Nat) (part : AnswerPart) (h : InHand), s.awaitsWrite tag (.answer part) → part ≠ .outcome →
    s.writer.inHand = some h → h.stage = .writing →
    exec (.outcomeWriteAck tag) s = .next { s with
      writer := { s.writer with inHand := some { h with unissued := h.unissued.drop 1 } }
      port := (s.portWithout tag).issueAll (h.unissued.take 1) })
  ∧ ∀ (s : State) (tag : Nat) (h : InHand), s.awaitsWrite tag (.answer .outcome) → s.writer.inHand = some h →
    h.stage = .writing →
    ∃ t, exec (.outcomeWriteAck tag) s = .next t
      ∧ (∀ i < 64, t.intake.map.getLsbD i = (s.intake.map.getLsbD i || decide (i = h.answer.seq.toNat % 64)))
      ∧ t.intake.retired = Intake.retireCheck { s.intake with map := t.intake.map }
      ∧ (h.ofEntry = false → t.work = s.work ∧ t.engine = s.engine ∧ t.intake.install = false)
      ∧ (h.ofEntry = true → t.intake.install = s.intake.install
        ∧ ((∀ x ∈ s.work, x.seq ≠ h.answer.seq) → t.work = s.work ∧ t.engine = s.engine)
        ∧ ∀ (pre : List Entry) (e : Entry) (post : List Entry), s.work = pre ++ e :: post →
          e.seq = h.answer.seq → (∀ x ∈ pre, x.seq ≠ e.seq) →
          t.work = pre ++ post ∧ t.engine = if e.state = .running then .free else s.engine)
      ∧ t.writer = { s.writer with inHand := some { h with
          stage := if t.intake.retired = s.intake.retired then .update else .reportAsked
          metPost := decide (t.intake.retired ≠ s.intake.retired ∧ t.intake.retired = s.win.post) } }
      ∧ t.report = { s.report with pending := s.report.pending
          || (decide (s.win.state = .run ∨ s.win.state = .hot) && decide (t.intake.retired ≠ s.intake.retired)) }
      ∧ t = { s with
          intake := { s.intake with map := t.intake.map, retired := t.intake.retired, install := t.intake.install }
          work := t.work, engine := t.engine, writer := t.writer, report := t.report, port := s.portWithout tag }

/-- R121: the retire check moves the retired count over answered dockets, oldest first, up to the first whose flag is
clear or to the taken count; and where the retired count is set or kept. -/
def Obligations.RetireCheck : Prop :=
  (∀ i : Intake, ∃ k : Nat, k ≤ (i.taken - i.retired).toNat ∧ i.retireCheck = i.retired + BitVec.ofNat 16 k
    ∧ (∀ j < k, i.map.getLsbD ((i.retired + BitVec.ofNat 16 j).toNat % 64) = true)
    ∧ (i.retireCheck = i.taken ∨ i.map.getLsbD (i.retireCheck.toNat % 64) = false))
  ∧ (∀ (i : Intake) (seq : Count) (ofEntry : Bool),
      (i.answered seq ofEntry).retired = Intake.retireCheck { i with map := (i.answered seq ofEntry).map })
  ∧ (∀ s t : State, exec .powerOnReset s = .next t ∨ exec .softReset s = .next t → t.intake.retired = 0)
  ∧ (∀ (b : SetupBlock) (s : State), (enterRun b s).intake.retired = 0)
  ∧ ∀ (s t : State) (tag : Nat), exec .modeReopen s = .next t ∨ exec (.exchangeFault tag) s = .next t →
      t.intake.retired = s.intake.retired

/-- Sections 7.2 and 6.5: the signalling update: RUSH for a RUSH frame, else the grouping counter counts an answer
that is not CANCELLED while N is above 0; then the idle flush, where the answer's retire check advanced the retired
count to equal POST or where they are equal now (log entry 32, DEDUCED); the outcome writer is free, and intake's
phase IDLE where the answer was its own. During a cancel the completion's report block write is asked for in this
command where nothing is left below the boundary (log entry 25, DEDUCED), and stands as the pending flag (log entry
8). -/
def Obligations.SignallingUpdate : Prop :=
  ∀ (s : State) (h : InHand), s.writer.inHand = some h → h.stage = .update →
    let g := s.sig
    let counted : Signalling :=
      if h.answer.rush then { g with flags := { g.flags with rush := true } }
      else if h.answer.outcome = .cancelled ∨ g.grouping = 0 then g
      else if g.counter + 1 = g.grouping then { g with flags := { g.flags with done := true }, counter := 0 }
      else { g with counter := g.counter + 1 }
    let flushed : Signalling :=
      if (h.metPost = true ∨ s.intake.retired = s.win.post) ∧ 0 < counted.counter then
        { counted with flags := { counted.flags with done := true }, counter := 0 }
      else counted
    let t : State := { s with
      sig := flushed
      writer := { s.writer with inHand := none }
      intake := { s.intake with phase := if h.ofEntry then s.intake.phase else .idle } }
    (s.win.cancel = none → exec .signallingUpdate s = .next t)
    ∧ ∀ c, s.win.cancel = some c →
      (c.stage = .working → s.intake.taken = c.boundary → t.intake.phase = .idle → s.work = [] → s.engine = .free →
        s.writer.waiting = [] →
        exec .signallingUpdate s = .next { t with
          win := { s.win with cancel := some { c with stage := .reportAsked } }
          report := { s.report with
            pending := s.report.pending || decide (s.win.state = .run ∨ s.win.state = .hot) } })
      ∧ ((c.stage ≠ .working ∨ s.intake.taken ≠ c.boundary ∨ t.intake.phase ≠ .idle ∨ s.work ≠ []
          ∨ s.engine ≠ .free ∨ s.writer.waiting ≠ []) → exec .signallingUpdate s = .next t)

/-- Section 6.7: a report block write is taken up (sequence number, content, three writes) and acknowledged with its
third write; the retire check and the cancel that wait for it move on. The acknowledgement of another of the three, by
this command too (log entry 15), just ends it. A write asked for stands as the pending flag until it is taken up (log
entry 8). -/
def Obligations.ReportBlockWrites : Prop :=
  (∀ s : State, s.win.state = .run ∨ s.win.state = .hot → s.report.writing = false → s.report.pending = true →
    s.tap.log.length ≤ 64 →
    let seq := s.report.seq + 1
    let seqBytes : List Byte := [seq.extractLsb' 0 8, seq.extractLsb' 8 8]
    let base := s.win.xbase.toNat + 256
    let id := s.tap.current.getD { model := 0, ext := 0 }
    ∃ body : List Byte,
      exec .reportWriteTakeUp s = .next { s with
        report := { seq, writing := true, pending := false }
        port := s.port.issueAll [(.report .leading, .write [(base, seqBytes)]),
          (.report .body, .write [(base + 2, body)]), (.report .trailing, .write [(base + 252, seqBytes ++ [0, 0])])]
        writer := { s.writer with inHand := s.writer.inHand.map fun h =>
          { h with stage := if h.stage = .reportAsked then .reportCarried else h.stage } }
        win := { s.win with cancel := s.win.cancel.map fun c =>
          { c with stage := if c.stage = .reportAsked then .reportCarried else c.stage } } }
      ∧ body.length = 250
      ∧ fieldAt body 0 2 = s.intake.retired.toNat ∧ fieldAt body 2 2 = s.intake.taken.toNat
      ∧ fieldAt body 4 2 = id.model % 65536 ∧ fieldAt body 6 1 = id.ext % 256
      ∧ fieldAt body 7 1 = s.tap.epoch.toNat ∧ fieldAt body 8 1 = s.tap.log.length
      ∧ fieldAt body 9 1 = (if s.tap.quiet then 1 else 0)
      ∧ (s.tap.log = [] → fieldAt body 10 4 = 0 ∧ fieldAt body 14 2 = 0)
      ∧ (∀ x, s.tap.log.getLast? = some x → fieldAt body 10 4 = x.stamp.toNat ∧ fieldAt body 14 2 = x.focal % 65536)
      ∧ fieldAt body 16 2 = s.tap.dropped.toNat ∧ fieldAt body 18 2 = s.tap.duplicates.toNat
      ∧ fieldAt body 20 2 = s.tap.glitches.toNat ∧ fieldAt body 22 1 = s.thermal.code.toNat
      ∧ fieldAt body 26 4 = s.tap.timebase.toNat
      ∧ ∀ i, (23 ≤ i ∧ i < 26) ∨ (30 ≤ i ∧ i < 250) → body[i]? = some 0)
  ∧ (∀ (s : State) (tag : Nat), s.awaitsWrite tag (.report .trailing) →
    exec (.reportWriteAck tag) s = .next { s with
      report := { s.report with writing := false }
      port := s.portWithout tag
      writer := { s.writer with inHand := s.writer.inHand.map fun h =>
        { h with stage := if h.stage = .reportCarried then .update else h.stage } }
      win := { s.win with cancel := s.win.cancel.map fun c =>
        { c with stage := if c.stage = .reportCarried then .reported else c.stage } } })
  ∧ (∀ (s : State) (tag : Nat) (part : ReportPart), s.awaitsWrite tag (.report part) → part ≠ .trailing →
      exec (.reportWriteAck tag) s = .next { s with port := s.portWithout tag })
  ∧ ∀ s : State, (s.win.state = .setup ∨ s.win.state = .halted ∨ s.report.writing = true ∨ s.report.pending = false) →
      exec .reportWriteTakeUp s = .next s

/-! ### The register window and the signalling unit (chapters 7 and 9) -/

/-- Sections 7.1, 7.4 and 7.5: ACK, CLEAR_FAULTS, ERROR_CLEAR and the IRQ enable update, each taken in every state; and
the interrupt output, active while the IRQ enable is on and a pending flag is set. -/
def Obligations.CtrlStrobes : Prop :=
  (∀ (s : State) (mask : BitVec 5), ∃ t, exec (.ack mask) s = .next t
    ∧ t = { s with sig := { s.sig with flags := t.sig.flags } }
    ∧ ∀ i < 5, t.sig.flags.bits.getLsbD i = (s.sig.flags.bits.getLsbD i && !mask.getLsbD i))
  ∧ (∀ s : State, ∃ t, exec .clearFaults s = .next t
    ∧ t = { s with sig := { s.sig with latches := t.sig.latches } }
    ∧ t.sig.latches.lensChange = false ∧ t.sig.latches.memory = false
    ∧ ∀ c : Condition, t.sig.latches.get c.latch = (s.sig.latches.get c.latch && s.sig.live.get c))
  ∧ (∀ s : State, exec .errorClear s = .next { s with sig := { s.sig with firstError := none } })
  ∧ (∀ (s : State) (enable : Bool),
      exec (.irqEnableUpdate true enable) s = .next { s with sig := { s.sig with irqEnable := enable } }
      ∧ exec (.irqEnableUpdate false enable) s = .next s)
  ∧ ∀ s : State, irqOutput s.sig = true ↔ s.sig.irqEnable = true
      ∧ (s.sig.flags.done = true ∨ s.sig.flags.rush = true ∨ s.sig.flags.fault = true ∨ s.sig.flags.error = true
        ∨ s.sig.flags.cancel = true)

/-- Section 9.2: the parts of a CTRL write act in order: a soft reset acts alone; otherwise the acknowledgement,
CLEAR_FAULTS, ERROR_CLEAR and the IRQ enable update act where they are named, then CANCEL, then the MODE request; a
write of zeros has no effect; a refusal of CANCEL or MODE outlives the acknowledgement and the ERROR_CLEAR of the same
write; CANCEL comes before REOPEN, which it makes busy. The commands of every register write (section 6.9): one of 32
bits to CTRL, POST or XBASE acts, another has no effect. How a write becomes commands is the model's choice (log entry
24). -/
def Obligations.CtrlWriteOrder : Prop :=
  (∀ (v : BitVec 32) (s : State), v.getLsbD 5 = true → execAll (ctrlWrite v) s = exec .softReset s)
  ∧ (∀ (v : BitVec 32) (s : State), v.getLsbD 5 = false →
      let flags := s.sig.flags
      let latches := s.sig.latches
      let live := s.sig.live
      let u : State := { s with sig := { s.sig with
        flags := { done := flags.done && !v.getLsbD 8, rush := flags.rush && !v.getLsbD 9
                   fault := flags.fault && !v.getLsbD 10, error := flags.error && !v.getLsbD 11
                   cancel := flags.cancel && !v.getLsbD 12 }
        latches := if v.getLsbD 3 = false then latches else
          { lensQuiet := latches.lensQuiet && live.quiet, lensChange := false
            heatWarn := latches.heatWarn && live.warning, heatShutdown := latches.heatShutdown && live.shutdown
            memory := false }
        firstError := if v.getLsbD 4 = true then none else s.sig.firstError
        irqEnable := if v.getLsbD 17 = true then v.getLsbD 16 else s.sig.irqEnable } }
      ∃ w, (if v.getLsbD 2 = true then exec .cancel u else .next u) = .next w
        ∧ execAll (ctrlWrite v) s = (if v.extractLsb' 0 2 = 1 then exec .modeRun w
            else if v.extractLsb' 0 2 = 2 then exec .modeReopen w else .next w))
  ∧ (∀ (offset width : Nat) (v : BitVec 32) (s : State),
      (s.hostWrite offset width v) = { s with pending := s.pending ++ registerWrite offset width v }
      ∧ (width = 4 → (offset = 0x04 → registerWrite offset width v = ctrlWrite v)
        ∧ (offset = 0x08 → registerWrite offset width v = [.postWrite v])
        ∧ (offset = 0x10 → registerWrite offset width v = [.xbaseWrite v]))
      ∧ ((width ≠ 4 ∨ offset ∉ [0x04, 0x08, 0x10]) →
        registerWrite offset width v = [.otherRegisterWrite offset width v]
        ∧ execAll (registerWrite offset width v) s = .next s))
  ∧ (∀ s : State, execAll (ctrlWrite 0) s = .next s)
  ∧ (∀ (v : BitVec 32) (s t : State), v.getLsbD 5 = false → v.getLsbD 2 = true →
      (s.win.state = .setup ∨ s.win.state = .halted) → execAll (ctrlWrite v) s = .next t →
      t.sig.flags.error = true ∧ (v.getLsbD 4 = true → t.sig.firstError = some .cancelState))
  ∧ (∀ (v : BitVec 32) (s t : State), v.getLsbD 5 = false → v.getLsbD 2 = false → v.extractLsb' 0 2 = 1 →
      s.win.state ≠ .setup → execAll (ctrlWrite v) s = .next t →
      t.sig.flags.error = true ∧ (v.getLsbD 4 = true → t.sig.firstError = some .modeState))
  ∧ ∀ (v : BitVec 32) (s t : State), v.getLsbD 5 = false → v.getLsbD 2 = true → v.extractLsb' 0 2 = 2 →
      (s.win.state = .run ∨ s.win.state = .hot) → execAll (ctrlWrite v) s = .next t →
      t.win.cancel ≠ none ∧ t.win.state = s.win.state ∧ t.sig.flags.error = true
        ∧ (v.getLsbD 4 = true → t.sig.firstError = some .reopenBusy)

/-- Sections 6.9, 7.6, 6.2 and 9.7: what reads of the five registers return, narrower reads included; writes to POST
and XBASE, accepted or refused with their error; the register writes that have no effect, whatever their operands (log
entry 26). A POST write accepted during a cancel may lower its boundary, and asks for the completion's report block
write where nothing is left below it (log entries 25 and 8). That a read past a register's end returns the bytes up to
that end alone is log entry 33 (DESIGN CHOICE). The first-error code of STATUS is that of R151's table. -/
def Obligations.RegisterWindow : Prop :=
  (∀ x ∈ [(ErrorCode.postState, 1), (.postRange, 2), (.xbaseLocked, 3), (.xbaseAlign, 4), (.setupInvalid, 5),
      (.setupReadFault, 6), (.reopenBusy, 7), (.cancelState, 8), (.exchangeFault, 9), (.modeState, 10)],
    x.1.code = x.2)
  ∧ (∀ s : State,
    readRegister s 0x00 = 0x72140001 ∧ readRegister s 0x04 = (if s.sig.irqEnable then 0x00010000 else 0)
    ∧ readRegister s 0x08 = s.win.post.setWidth 32 ∧ readRegister s 0x10 = s.win.xbase
    ∧ (∀ offset, offset ∉ [0x00, 0x04, 0x08, 0x0C, 0x10] → readRegister s offset = 0)
    ∧ (let status := readRegister s 0x0C
       status.extractLsb' 0 2 = (match s.win.state with | .setup => 0 | .run => 1 | .hot => 2 | .halted => 3)
       ∧ (List.range 11).map (fun i => status.getLsbD (2 + i))
          = [s.win.cancel.isSome, s.sig.flags.done, s.sig.flags.rush, s.sig.flags.fault, s.sig.flags.error,
            s.sig.flags.cancel, s.sig.latches.lensQuiet, s.sig.latches.lensChange, s.sig.latches.heatWarn,
            s.sig.latches.heatShutdown, s.sig.latches.memory]
       ∧ status.extractLsb' 13 3 = 0 ∧ status.extractLsb' 16 8 = s.thermal.code
       ∧ status.extractLsb' 24 8 = (match s.sig.firstError with | none => 0 | some e => BitVec.ofNat 8 e.code)))
  ∧ (∀ (s : State) (offset width i : Nat),
    (readWindow s offset width).length = min width (4 - offset % 4)
    ∧ (i < width → offset % 4 + i < 4 → (readWindow s offset width)[i]?
      = some ((readRegister s (offset - offset % 4)).extractLsb' (8 * (offset % 4 + i)) 8)))
  ∧ (∀ (s : State) (v : BitVec 32),
    let new : Count := v.setWidth 16
    let flushed : Signalling := if new = s.intake.retired ∧ 0 < s.sig.counter then
        { s.sig with flags := { s.sig.flags with done := true }, counter := 0 }
      else s.sig
    ((s.win.state = .setup ∨ s.win.state = .halted) → exec (.postWrite v) s = .next (s.withError .postState))
    ∧ ((s.win.state = .run ∨ s.win.state = .hot) →
      ((64 < (new - s.intake.retired).toNat
          ∨ (new - s.intake.retired).toNat < (s.intake.taken - s.intake.retired).toNat) →
        exec (.postWrite v) s = .next (s.withError .postRange))
      ∧ ((new - s.intake.retired).toNat ≤ 64 →
          (s.intake.taken - s.intake.retired).toNat ≤ (new - s.intake.retired).toNat → s.win.cancel = none →
        exec (.postWrite v) s = .next { s with
          win := { s.win with post := new }, sig := flushed })
      ∧ ((new - s.intake.retired).toNat ≤ 64 →
          (s.intake.taken - s.intake.retired).toNat ≤ (new - s.intake.retired).toNat →
        ∀ c, s.win.cancel = some c →
          let boundary : Count :=
            if (new - s.intake.retired).toNat < (c.boundary - s.intake.retired).toNat then new else c.boundary
          let settled : Prop := c.stage = .working ∧ s.intake.taken = boundary ∧ s.intake.phase = .idle ∧ s.work = []
            ∧ s.engine = .free ∧ s.writer = { inHand := none, waiting := [] }
          (settled → exec (.postWrite v) s = .next { s with
            win := { s.win with post := new, cancel := some { boundary, stage := .reportAsked } }, sig := flushed
            report := { s.report with pending := true } })
          ∧ (¬ settled → exec (.postWrite v) s = .next { s with
            win := { s.win with post := new, cancel := some { c with boundary } }, sig := flushed }))))
  ∧ (∀ (s : State) (v : BitVec 32),
    (s.win.state = .setup → s.win.setupRead = false →
      (v.toNat % 4096 = 0 → exec (.xbaseWrite v) s = .next { s with win := { s.win with xbase := v } })
      ∧ (v.toNat % 4096 ≠ 0 → exec (.xbaseWrite v) s = .next (s.withError .xbaseAlign)))
    ∧ ((s.win.state ≠ .setup ∨ s.win.setupRead = true) →
      exec (.xbaseWrite v) s = .next (s.withError .xbaseLocked)))
  ∧ ∀ (s : State) (offset width : Nat) (v : BitVec 32), exec (.otherRegisterWrite offset width v) s = .next s

/-- Section 9.3: a RUN request reads the setup block or is refused; its read ends in an error, in SETUP_INVALID, or in
RUN entry, with the quiet condition starting at once where the new Q is already reached (log entry 19, DEDUCED); the
report block write it asks for stands as the pending flag (log entry 8). R106: when a setup block is valid. -/
def Obligations.RunEntry : Prop :=
  (∀ (b : SetupBlock) (xbase : BitVec 32), b.valid xbase = true ↔
    b.layout = 1 ∧ b.low % 4096 = 0 ∧ b.high % 4096 = 0 ∧ b.low < b.high
    ∧ b.low ≤ xbase.toNat ∧ xbase.toNat + 20480 ≤ b.high
    ∧ b.wf % 16 = 0 ∧ 256 ≤ b.wf ∧ b.wf ≤ 8192 ∧ b.hf % 16 = 0 ∧ 256 ≤ b.hf ∧ b.hf ≤ 6144
    ∧ 8 ≤ b.quietMs ∧ b.quietMs ≤ 250 ∧ b.latency ≤ 2000 ∧ b.grouping ∈ [0, 1, 2, 4, 8, 16]
    ∧ b.missing ≤ 1 ∧ b.stale ≤ 1) ∧
  (∀ s : State, s.win.state = .setup → s.win.setupRead = false →
    exec .modeRun s = .next { s with
      win := { s.win with setupRead := true }
      port := { reqs := s.port.reqs ++ [{ tag := s.port.nextTag, use := .setupBlock, live := true
                                          access := .read s.win.xbase.toNat 22 }]
                nextTag := s.port.nextTag + 1 } })
  ∧ (∀ s : State, (s.win.state ≠ .setup ∨ s.win.setupRead = true) →
      exec .modeRun s = .next (s.withError .modeState))
  ∧ (∀ (s : State) (tag : Nat), s.awaitsRead tag .setupBlock 22 →
      exec (.setupReadFault tag) s = .next { s.withError .setupReadFault with
        port := s.portWithout tag, win := { s.win with setupRead := false } })
  ∧ ∀ (s : State) (tag : Nat) (bytes : List Byte), s.awaitsRead tag .setupBlock 22 → bytes.length = 22 →
      s.win.state = .setup →
      let b := setupFields bytes
      (b.valid s.win.xbase = false →
        exec (.setupReadReturn tag bytes) s = .next { s.withError .setupInvalid with
          port := s.portWithout tag, win := { s.win with setupRead := false } })
      ∧ (b.valid s.win.xbase = true →
        let starts : Bool := !s.tap.quiet && decide (b.quietMs * 1000 ≤ s.tap.quietTimer)
        exec (.setupReadReturn tag bytes) s = .next { s with
          port := s.portWithout tag
          win := { s.win with
            state := if s.thermal.shutdown then .hot else .run, post := 0, setupRead := false
            locked := some { wf := b.wf, hf := b.hf, low := b.low, high := b.high } }
          intake := { s.intake with taken := 0, retired := 0, map := 0, phase := .idle }
          tap := { s.tap with latency := b.latency, quietMs := b.quietMs, quiet := s.tap.quiet || starts }
          sig := { s.sig with
            counter := 0, grouping := b.grouping
            missing := if b.missing = 1 then .refuse else .pass, stale := if b.stale = 1 then .pass else .hold
            mask := { lensQuiet := b.mask.testBit 0, lensChange := b.mask.testBit 1, heatWarn := b.mask.testBit 2 }
            live := { s.sig.live with quiet := s.sig.live.quiet || starts }
            latches := { s.sig.latches with lensQuiet := s.sig.latches.lensQuiet || starts }
            flags := { s.sig.flags with fault := s.sig.flags.fault
              || (starts && !s.sig.latches.lensQuiet && s.sig.mask.lensQuiet) } }
          report := { s.report with pending := true } })

/-- Section 9.4: REOPEN is honoured in RUN while the part is quiescent, and refused with REOPEN_BUSY otherwise. -/
def Obligations.Reopen : Prop :=
  ∀ s : State,
    ((s.win.state = .run ∧ s.win.post = s.intake.taken ∧ s.intake.taken = s.intake.retired ∧ s.work = []
        ∧ s.win.cancel = none ∧ s.writer = { inHand := none, waiting := [] } ∧ s.report.writing = false
        ∧ s.report.pending = false) →
      exec .modeReopen s = .next { s with win := { s.win with state := .setup, locked := none } })
    ∧ ((s.win.state ≠ .run ∨ s.win.post ≠ s.intake.taken ∨ s.intake.taken ≠ s.intake.retired ∨ s.work ≠ []
        ∨ s.win.cancel ≠ none ∨ s.writer ≠ { inHand := none, waiting := [] } ∨ s.report.writing = true
        ∨ s.report.pending = true) →
      exec .modeReopen s = .next (s.withError .reopenBusy))

/-- Sections 9.5 and 5.6: CANCEL is refused in SETUP and HALTED, has no effect during a cancel, and is otherwise
accepted: the boundary is POST and the entries not RUNNING are handed on as CANCELLED; with nothing below the boundary
its report block write is asked for at once (log entry 25, DEDUCED), and stands as the pending flag (log entry 8). The
completion sets CANCEL; without a cancel whose write is acknowledged it changes nothing (log entry 1). -/
def Obligations.CancelCommands : Prop :=
  (∀ s : State, (s.win.state = .setup ∨ s.win.state = .halted) → exec .cancel s = .next (s.withError .cancelState))
  ∧ (∀ s : State, (s.win.state = .run ∨ s.win.state = .hot) → s.win.cancel ≠ none → exec .cancel s = .next s)
  ∧ (∀ s : State, (s.win.state = .run ∨ s.win.state = .hot) → s.win.cancel = none →
    let idle : Prop := s.intake.taken = s.win.post ∧ s.intake.phase = .idle ∧ s.work = [] ∧ s.engine = .free
      ∧ s.writer = { inHand := none, waiting := [] }
    (idle → exec .cancel s = .next { s with
      win := { s.win with cancel := some { boundary := s.win.post, stage := .reportAsked } }
      report := { s.report with pending := true } })
    ∧ (¬ idle → exec .cancel s = .next { s with
      win := { s.win with cancel := some { boundary := s.win.post, stage := .working } }
      writer := { s.writer with waiting := s.writer.waiting
        ++ (s.work.filter fun e => e.state ≠ .running).map fun e => .entry e.seq .cancelled } }))
  ∧ (∀ (s : State) (c : Cancel), s.win.cancel = some c → c.stage = .reported →
    exec .cancelComplete s = .next { s with
      win := { s.win with cancel := none }
      sig := { s.sig with flags := { s.sig.flags with cancel := true } } })
  ∧ ∀ s : State, (∀ c, s.win.cancel = some c → c.stage ≠ .reported) → exec .cancelComplete s = .next s

/-- Section 6.8: an exchange fault taken in RUN or HOT enters HALTED, whole; in SETUP and HALTED, or for a request that
is no longer live, the request just ends. -/
def Obligations.ExchangeFaultTaken : Prop :=
  ∀ (s : State) (tag : Nat) (r : Request), s.port.find tag = some r → r.use.isExchange = true →
    (r.live = true → (s.win.state = .run ∨ s.win.state = .hot) →
      ∃ t, exec (.exchangeFault tag) s = .next t
        ∧ t.slots.length = s.slots.length
        ∧ (∀ (i : Nat) (x : Slot), s.slots[i]? = some x → t.slots[i]? = some (if x = .loading then .empty else x))
        ∧ t = { s.withError .exchangeFault with
            win := { s.win with state := .halted, cancel := none }
            intake := { s.intake with phase := .idle, install := false }
            slots := t.slots
            writer := { inHand := none, waiting := [] }
            report := { s.report with writing := false, pending := false }
            work := [], engine := .free
            port := { s.port with reqs := (s.portWithout tag).reqs.map fun q => { q with live := false } } })
    ∧ ((r.live = false ∨ s.win.state = .setup ∨ s.win.state = .halted) →
      exec (.exchangeFault tag) s = .next { s with port := s.portWithout tag })

/-- Chapter 8: a temperature sample: the code, the two conditions by their thresholds, what the signalling unit is told,
the operating state, the engine's break-off at entry to HOT, and the pick that the return to RUN makes at once. The unit
of the operand is the model's (log entry 21). The bit of WARM is that of `AnswerTakenUp`. -/
def Obligations.TemperatureSampled : Prop :=
  ∀ (s : State) (milli : Int), ∃ t : State,
    exec (.temperatureSample milli) s
      = (if s.win.state = .hot ∧ s.thermal.shutdown = true ∧ t.thermal.shutdown = false then exec .pick t else .next t)
    ∧ (milli / 1000 ≤ -40 → t.thermal.code = 0)
    ∧ (-39 ≤ milli / 1000 → milli / 1000 ≤ 214 → (t.thermal.code.toNat : Int) = milli / 1000 + 40)
    ∧ (215 ≤ milli / 1000 → t.thermal.code = 255)
    ∧ t.thermal.warning
        = (if s.thermal.warning then decide (131 < t.thermal.code.toNat) else decide (140 ≤ t.thermal.code.toNat))
    ∧ t.thermal.shutdown
        = (if s.thermal.shutdown then decide (144 < t.thermal.code.toNat) else decide (158 ≤ t.thermal.code.toNat))
    ∧ (let warns := !s.thermal.warning && t.thermal.warning
       let shuts := !s.thermal.shutdown && t.thermal.shutdown
       t.sig = { s.sig with
          live := { s.sig.live with
            warning := if s.thermal.warning = t.thermal.warning then s.sig.live.warning else t.thermal.warning
            shutdown := if s.thermal.shutdown = t.thermal.shutdown then s.sig.live.shutdown else t.thermal.shutdown }
          latches := { s.sig.latches with
            heatWarn := s.sig.latches.heatWarn || warns, heatShutdown := s.sig.latches.heatShutdown || shuts }
          flags := { s.sig.flags with fault := s.sig.flags.fault
            || (warns && !s.sig.latches.heatWarn && s.sig.mask.heatWarn)
            || (shuts && !s.sig.latches.heatShutdown) } }
       ∧ t.win = { s.win with state :=
          if s.win.state = .run ∧ shuts = true then .hot
          else if s.win.state = .hot ∧ s.thermal.shutdown = true ∧ t.thermal.shutdown = false then .run
          else s.win.state }
       ∧ ((∀ cache tally rest, s.engine ≠ .band cache tally rest) →
          t.work = s.work ∧ t.engine = s.engine ∧ t.port = s.port ∧ t.writer = s.writer)
       ∧ (∀ cache tally rest, s.engine = .band cache tally rest →
          t.work = (if warns then s.work.map fun e =>
            if e.state = .running then { e with notes := addNote e.notes .warm } else e else s.work)
          ∧ ((s.win.state ≠ .run ∨ shuts = false) →
            t.engine = s.engine ∧ t.port = s.port ∧ t.writer = s.writer)
          ∧ (s.win.state = .run → shuts = true →
            t.port = { s.port with reqs := s.port.reqs.map fun r =>
              if r.use.isBandRead then { r with live := false } else r }
            ∧ ((∃ r ∈ s.port.reqs, r.live = true ∧ r.use.isBandWrite = true) →
              t.engine = .drain (.abandoned .overheat) ∧ t.writer = s.writer)
            ∧ ((∀ r ∈ s.port.reqs, r.live = true → r.use.isBandWrite = false) →
              ∀ e, runningEntry s.work = some e →
              t.engine = .outcome ∧ t.writer = { s.writer with
                waiting := s.writer.waiting ++ [.entry e.seq (.abandoned .overheat)] })))
       ∧ t = { s with
          thermal := t.thermal, sig := t.sig, win := t.win, work := t.work, engine := t.engine, port := t.port
          writer := t.writer })

/-! ### What every step keeps -/

/-- Sections 1.1 and 1.2: every step keeps the profile table within its rules: twelve slots, every READY slot with a
profile within its limits, no identity in two READY slots; and, where the dockets in hand are within theirs
(`WorkListKept`), at most one slot LOADING, the one that the install in progress names. -/
def Obligations.TableKept : Prop :=
  (∀ s t : State, TableOk s.slots → step s = .next t → TableOk t.slots)
  ∧ ∀ s t : State, TableOk s.slots → LoadingOk s → DocketsOk s → step s = .next t → LoadingOk t

/-- Sections 2.1 to 2.4: every step keeps the tap within its rules: the receiver's run open no longer than to the end of
its closing gap, at most 64 samples, each stamp later than the one before, every focal length in 1..65535, L and Q in
range, a candidate that is not the current identity. -/
def Obligations.TapKept : Prop :=
  ∀ s t : State, TapOk s.tap → step s = .next t → TapOk t.tap

/-- Sections 6.2 and 9.5: every step keeps retired ≤ taken ≤ POST ≤ retired + 64, a cancel's boundary between taken and
POST, and no cancel in SETUP or HALTED. -/
def Obligations.CountsKept : Prop :=
  ∀ s t : State, CountsOk s → step s = .next t → CountsOk t

/-- Sections 5.1 to 5.4, 3.4 and 3.5: every step keeps the work list within its rules (at most eight entries, one
RUNNING exactly while the engine is not FREE, at most one PARKED, of class BURST, and an entry RUNNING beside it RUSH)
and every entry's frozen curve and fill values within theirs. It keeps the bands done within 0 to the frame's band
count, none done while WAITING, one done and one to run at least while PARKED. And with the counts in order
(`CountsKept`) it keeps the dockets not yet answered with sequence numbers of their own, in intake order, the work
list's among them. -/
def Obligations.WorkListKept : Prop :=
  (∀ s t : State, WorkOk s → (∀ e ∈ s.work, EntryOk e) → step s = .next t → WorkOk t ∧ ∀ e ∈ t.work, EntryOk e)
  ∧ (∀ s t : State, WorkOk s → BandsOk s → step s = .next t → BandsOk t)
  ∧ ∀ s t : State, CountsOk s → DocketsOk s → step s = .next t → DocketsOk t

/-- Sections 7.2, 7.4 and 8.3: every step keeps N one of its values and the grouping counter below it, the signalling
unit's copies of the live conditions true, a latch set while its condition is present, and the shutdown condition within
the warning condition. -/
def Obligations.SignallingKept : Prop :=
  ∀ s t : State, GroupingOk s.sig → ConditionsOk s → step s = .next t → GroupingOk t.sig ∧ ConditionsOk t

/-- Section 9.1: the operating state changes by the rows of its table alone. -/
def Obligations.OperatingStates : Prop :=
  ∀ (c : Instr) (s t : State), exec c s = .next t → t.win.state ≠ s.win.state →
    (s.win.state = .setup ∧ (∃ tag bytes, c = .setupReadReturn tag bytes)
        ∧ t.win.state = if s.thermal.shutdown then .hot else .run)
    ∨ (s.win.state = .run ∧ t.win.state = .hot ∧ (∃ milli, c = .temperatureSample milli)
        ∧ s.thermal.shutdown = false ∧ t.thermal.shutdown = true)
    ∨ (s.win.state = .hot ∧ t.win.state = .run ∧ (∃ milli, c = .temperatureSample milli)
        ∧ s.thermal.shutdown = true ∧ t.thermal.shutdown = false)
    ∨ (s.win.state = .run ∧ t.win.state = .setup ∧ c = .modeReopen)
    ∨ ((s.win.state = .run ∨ s.win.state = .hot) ∧ t.win.state = .halted
        ∧ ∃ tag, c = .exchangeFault tag ∨ c = .memoryRequestTimeout tag)
    ∨ (t.win.state = .setup ∧ (c = .softReset ∨ c = .powerOnReset))

/-- Section 7.5: once the first-error code is nonzero, only ERROR_CLEAR and the two resets change it, and they return
it to zero; and an error that sets it sets ERROR. -/
def Obligations.FirstErrorKept : Prop :=
  (∀ (c : Instr) (s t : State) (e : ErrorCode), s.sig.firstError = some e → exec c s = .next t →
    t.sig.firstError = some e
      ∨ (t.sig.firstError = none ∧ (c = .errorClear ∨ c = .softReset ∨ c = .powerOnReset)))
  ∧ ∀ (c : Instr) (s t : State) (e : ErrorCode), s.sig.firstError = none → exec c s = .next t →
      t.sig.firstError = some e → t.sig.flags.error = true
end

