-- ==== Sys2Proof/Laws/State.lean ====
section
/-! SUPPORT. What each update of State leaves as it was and what it writes, one lemma per field, true by unfolding. -/

namespace Sys2Proof.Machine

/-! ### The fields an operation leaves as they are -/

@[simp] theorem State.issue_win (s : State) (rs : List (Use × Access)) : (s.issue rs).win = s.win := rfl
@[simp] theorem State.issue_intake (s : State) (rs : List (Use × Access)) : (s.issue rs).intake = s.intake := rfl
@[simp] theorem State.issue_slots (s : State) (rs : List (Use × Access)) : (s.issue rs).slots = s.slots := rfl
@[simp] theorem State.issue_tap (s : State) (rs : List (Use × Access)) : (s.issue rs).tap = s.tap := rfl
@[simp] theorem State.issue_work (s : State) (rs : List (Use × Access)) : (s.issue rs).work = s.work := rfl
@[simp] theorem State.issue_engine (s : State) (rs : List (Use × Access)) : (s.issue rs).engine = s.engine := rfl
@[simp] theorem State.issue_writer (s : State) (rs : List (Use × Access)) : (s.issue rs).writer = s.writer := rfl
@[simp] theorem State.issue_report (s : State) (rs : List (Use × Access)) : (s.issue rs).report = s.report := rfl
@[simp] theorem State.issue_sig (s : State) (rs : List (Use × Access)) : (s.issue rs).sig = s.sig := rfl
@[simp] theorem State.issue_thermal (s : State) (rs : List (Use × Access)) : (s.issue rs).thermal = s.thermal := rfl
@[simp] theorem State.issue_free (s : State) (rs : List (Use × Access)) : (s.issue rs).free = s.free := rfl
@[simp] theorem State.issue_pending (s : State) (rs : List (Use × Access)) : (s.issue rs).pending = s.pending := rfl

@[simp] theorem State.askReport_win (s : State) : (s.askReport).win = s.win := rfl
@[simp] theorem State.askReport_intake (s : State) : (s.askReport).intake = s.intake := rfl
@[simp] theorem State.askReport_slots (s : State) : (s.askReport).slots = s.slots := rfl
@[simp] theorem State.askReport_tap (s : State) : (s.askReport).tap = s.tap := rfl
@[simp] theorem State.askReport_work (s : State) : (s.askReport).work = s.work := rfl
@[simp] theorem State.askReport_engine (s : State) : (s.askReport).engine = s.engine := rfl
@[simp] theorem State.askReport_writer (s : State) : (s.askReport).writer = s.writer := rfl
@[simp] theorem State.askReport_port (s : State) : (s.askReport).port = s.port := rfl
@[simp] theorem State.askReport_sig (s : State) : (s.askReport).sig = s.sig := rfl
@[simp] theorem State.askReport_thermal (s : State) : (s.askReport).thermal = s.thermal := rfl
@[simp] theorem State.askReport_free (s : State) : (s.askReport).free = s.free := rfl
@[simp] theorem State.askReport_pending (s : State) : (s.askReport).pending = s.pending := rfl

@[simp] theorem State.answer_win (s : State) (a : Answer) : (s.answer a).win = s.win := rfl
@[simp] theorem State.answer_slots (s : State) (a : Answer) : (s.answer a).slots = s.slots := rfl
@[simp] theorem State.answer_tap (s : State) (a : Answer) : (s.answer a).tap = s.tap := rfl
@[simp] theorem State.answer_work (s : State) (a : Answer) : (s.answer a).work = s.work := rfl
@[simp] theorem State.answer_engine (s : State) (a : Answer) : (s.answer a).engine = s.engine := rfl
@[simp] theorem State.answer_report (s : State) (a : Answer) : (s.answer a).report = s.report := rfl
@[simp] theorem State.answer_port (s : State) (a : Answer) : (s.answer a).port = s.port := rfl
@[simp] theorem State.answer_sig (s : State) (a : Answer) : (s.answer a).sig = s.sig := rfl
@[simp] theorem State.answer_thermal (s : State) (a : Answer) : (s.answer a).thermal = s.thermal := rfl
@[simp] theorem State.answer_free (s : State) (a : Answer) : (s.answer a).free = s.free := rfl
@[simp] theorem State.answer_pending (s : State) (a : Answer) : (s.answer a).pending = s.pending := rfl

@[simp] theorem State.error_win (s : State) (e : ErrorCode) : (s.error e).win = s.win := rfl
@[simp] theorem State.error_intake (s : State) (e : ErrorCode) : (s.error e).intake = s.intake := rfl
@[simp] theorem State.error_slots (s : State) (e : ErrorCode) : (s.error e).slots = s.slots := rfl
@[simp] theorem State.error_tap (s : State) (e : ErrorCode) : (s.error e).tap = s.tap := rfl
@[simp] theorem State.error_work (s : State) (e : ErrorCode) : (s.error e).work = s.work := rfl
@[simp] theorem State.error_engine (s : State) (e : ErrorCode) : (s.error e).engine = s.engine := rfl
@[simp] theorem State.error_writer (s : State) (e : ErrorCode) : (s.error e).writer = s.writer := rfl
@[simp] theorem State.error_report (s : State) (e : ErrorCode) : (s.error e).report = s.report := rfl
@[simp] theorem State.error_port (s : State) (e : ErrorCode) : (s.error e).port = s.port := rfl
@[simp] theorem State.error_thermal (s : State) (e : ErrorCode) : (s.error e).thermal = s.thermal := rfl
@[simp] theorem State.error_free (s : State) (e : ErrorCode) : (s.error e).free = s.free := rfl
@[simp] theorem State.error_pending (s : State) (e : ErrorCode) : (s.error e).pending = s.pending := rfl

@[simp] theorem State.toOutcome_win (s : State) (v : Verdict) : (s.toOutcome v).win = s.win := rfl
@[simp] theorem State.toOutcome_intake (s : State) (v : Verdict) : (s.toOutcome v).intake = s.intake := rfl
@[simp] theorem State.toOutcome_slots (s : State) (v : Verdict) : (s.toOutcome v).slots = s.slots := rfl
@[simp] theorem State.toOutcome_tap (s : State) (v : Verdict) : (s.toOutcome v).tap = s.tap := rfl
@[simp] theorem State.toOutcome_work (s : State) (v : Verdict) : (s.toOutcome v).work = s.work := rfl
@[simp] theorem State.toOutcome_report (s : State) (v : Verdict) : (s.toOutcome v).report = s.report := rfl
@[simp] theorem State.toOutcome_port (s : State) (v : Verdict) : (s.toOutcome v).port = s.port := rfl
@[simp] theorem State.toOutcome_sig (s : State) (v : Verdict) : (s.toOutcome v).sig = s.sig := rfl
@[simp] theorem State.toOutcome_thermal (s : State) (v : Verdict) : (s.toOutcome v).thermal = s.thermal := rfl
@[simp] theorem State.toOutcome_free (s : State) (v : Verdict) : (s.toOutcome v).free = s.free := rfl
@[simp] theorem State.toOutcome_pending (s : State) (v : Verdict) : (s.toOutcome v).pending = s.pending := rfl

@[simp] theorem State.enterHalted_tap (s : State) : (s.enterHalted).tap = s.tap := rfl
@[simp] theorem State.enterHalted_thermal (s : State) : (s.enterHalted).thermal = s.thermal := rfl
@[simp] theorem State.enterHalted_free (s : State) : (s.enterHalted).free = s.free := rfl
@[simp] theorem State.enterHalted_pending (s : State) : (s.enterHalted).pending = s.pending := rfl

@[simp] theorem State.softReset_tap (s : State) : (s.softReset).tap = s.tap := rfl
@[simp] theorem State.softReset_thermal (s : State) : (s.softReset).thermal = s.thermal := rfl
@[simp] theorem State.softReset_free (s : State) : (s.softReset).free = s.free := rfl
@[simp] theorem State.softReset_pending (s : State) : (s.softReset).pending = s.pending := rfl

@[simp] theorem startQuiet_win (s : State) : (startQuiet s).win = s.win := rfl
@[simp] theorem startQuiet_intake (s : State) : (startQuiet s).intake = s.intake := rfl
@[simp] theorem startQuiet_slots (s : State) : (startQuiet s).slots = s.slots := rfl
@[simp] theorem startQuiet_work (s : State) : (startQuiet s).work = s.work := rfl
@[simp] theorem startQuiet_engine (s : State) : (startQuiet s).engine = s.engine := rfl
@[simp] theorem startQuiet_writer (s : State) : (startQuiet s).writer = s.writer := rfl
@[simp] theorem startQuiet_port (s : State) : (startQuiet s).port = s.port := rfl
@[simp] theorem startQuiet_thermal (s : State) : (startQuiet s).thermal = s.thermal := rfl
@[simp] theorem startQuiet_free (s : State) : (startQuiet s).free = s.free := rfl
@[simp] theorem startQuiet_pending (s : State) : (startQuiet s).pending = s.pending := rfl

@[simp] theorem State.moveWaiters_intake (s : State) (f : Stage → Stage) (g : CancelStage → CancelStage)
    : (s.moveWaiters f g).intake = s.intake := rfl
@[simp] theorem State.moveWaiters_slots (s : State) (f : Stage → Stage) (g : CancelStage → CancelStage)
    : (s.moveWaiters f g).slots = s.slots := rfl
@[simp] theorem State.moveWaiters_tap (s : State) (f : Stage → Stage) (g : CancelStage → CancelStage)
    : (s.moveWaiters f g).tap = s.tap := rfl
@[simp] theorem State.moveWaiters_work (s : State) (f : Stage → Stage) (g : CancelStage → CancelStage)
    : (s.moveWaiters f g).work = s.work := rfl
@[simp] theorem State.moveWaiters_engine (s : State) (f : Stage → Stage) (g : CancelStage → CancelStage)
    : (s.moveWaiters f g).engine = s.engine := rfl
@[simp] theorem State.moveWaiters_report (s : State) (f : Stage → Stage) (g : CancelStage → CancelStage)
    : (s.moveWaiters f g).report = s.report := rfl
@[simp] theorem State.moveWaiters_port (s : State) (f : Stage → Stage) (g : CancelStage → CancelStage)
    : (s.moveWaiters f g).port = s.port := rfl
@[simp] theorem State.moveWaiters_sig (s : State) (f : Stage → Stage) (g : CancelStage → CancelStage)
    : (s.moveWaiters f g).sig = s.sig := rfl
@[simp] theorem State.moveWaiters_thermal (s : State) (f : Stage → Stage) (g : CancelStage → CancelStage)
    : (s.moveWaiters f g).thermal = s.thermal := rfl
@[simp] theorem State.moveWaiters_free (s : State) (f : Stage → Stage) (g : CancelStage → CancelStage)
    : (s.moveWaiters f g).free = s.free := rfl
@[simp] theorem State.moveWaiters_pending (s : State) (f : Stage → Stage) (g : CancelStage → CancelStage)
    : (s.moveWaiters f g).pending = s.pending := rfl

@[simp] theorem loadOptions_slots (b : SetupBlock) (s : State) : (loadOptions b s).slots = s.slots := rfl
@[simp] theorem loadOptions_tap (b : SetupBlock) (s : State) : (loadOptions b s).tap = s.tap := rfl
@[simp] theorem loadOptions_work (b : SetupBlock) (s : State) : (loadOptions b s).work = s.work := rfl
@[simp] theorem loadOptions_engine (b : SetupBlock) (s : State) : (loadOptions b s).engine = s.engine := rfl
@[simp] theorem loadOptions_writer (b : SetupBlock) (s : State) : (loadOptions b s).writer = s.writer := rfl
@[simp] theorem loadOptions_report (b : SetupBlock) (s : State) : (loadOptions b s).report = s.report := rfl
@[simp] theorem loadOptions_port (b : SetupBlock) (s : State) : (loadOptions b s).port = s.port := rfl
@[simp] theorem loadOptions_thermal (b : SetupBlock) (s : State) : (loadOptions b s).thermal = s.thermal := rfl
@[simp] theorem loadOptions_free (b : SetupBlock) (s : State) : (loadOptions b s).free = s.free := rfl
@[simp] theorem loadOptions_pending (b : SetupBlock) (s : State) : (loadOptions b s).pending = s.pending := rfl

@[simp] theorem takeUpReport_intake (s : State) : (takeUpReport s).intake = s.intake := rfl
@[simp] theorem takeUpReport_slots (s : State) : (takeUpReport s).slots = s.slots := rfl
@[simp] theorem takeUpReport_tap (s : State) : (takeUpReport s).tap = s.tap := rfl
@[simp] theorem takeUpReport_work (s : State) : (takeUpReport s).work = s.work := rfl
@[simp] theorem takeUpReport_engine (s : State) : (takeUpReport s).engine = s.engine := rfl
@[simp] theorem takeUpReport_sig (s : State) : (takeUpReport s).sig = s.sig := rfl
@[simp] theorem takeUpReport_thermal (s : State) : (takeUpReport s).thermal = s.thermal := rfl
@[simp] theorem takeUpReport_free (s : State) : (takeUpReport s).free = s.free := rfl
@[simp] theorem takeUpReport_pending (s : State) : (takeUpReport s).pending = s.pending := rfl

@[simp] theorem reportAcked_intake (s : State) : (reportAcked s).intake = s.intake := rfl
@[simp] theorem reportAcked_slots (s : State) : (reportAcked s).slots = s.slots := rfl
@[simp] theorem reportAcked_tap (s : State) : (reportAcked s).tap = s.tap := rfl
@[simp] theorem reportAcked_work (s : State) : (reportAcked s).work = s.work := rfl
@[simp] theorem reportAcked_engine (s : State) : (reportAcked s).engine = s.engine := rfl
@[simp] theorem reportAcked_sig (s : State) : (reportAcked s).sig = s.sig := rfl
@[simp] theorem reportAcked_thermal (s : State) : (reportAcked s).thermal = s.thermal := rfl
@[simp] theorem reportAcked_free (s : State) : (reportAcked s).free = s.free := rfl
@[simp] theorem reportAcked_pending (s : State) : (reportAcked s).pending = s.pending := rfl
@[simp] theorem reportAcked_port (s : State) : (reportAcked s).port = s.port := rfl

@[simp] theorem issueAnswerWrite_win (h : InHand) (s : State) : (issueAnswerWrite h s).win = s.win := rfl
@[simp] theorem issueAnswerWrite_intake (h : InHand) (s : State) : (issueAnswerWrite h s).intake = s.intake := rfl
@[simp] theorem issueAnswerWrite_slots (h : InHand) (s : State) : (issueAnswerWrite h s).slots = s.slots := rfl
@[simp] theorem issueAnswerWrite_tap (h : InHand) (s : State) : (issueAnswerWrite h s).tap = s.tap := rfl
@[simp] theorem issueAnswerWrite_work (h : InHand) (s : State) : (issueAnswerWrite h s).work = s.work := rfl
@[simp] theorem issueAnswerWrite_engine (h : InHand) (s : State) : (issueAnswerWrite h s).engine = s.engine := rfl
@[simp] theorem issueAnswerWrite_report (h : InHand) (s : State) : (issueAnswerWrite h s).report = s.report := rfl
@[simp] theorem issueAnswerWrite_sig (h : InHand) (s : State) : (issueAnswerWrite h s).sig = s.sig := rfl
@[simp] theorem issueAnswerWrite_thermal (h : InHand) (s : State) : (issueAnswerWrite h s).thermal = s.thermal := rfl
@[simp] theorem issueAnswerWrite_free (h : InHand) (s : State) : (issueAnswerWrite h s).free = s.free := rfl
@[simp] theorem issueAnswerWrite_pending (h : InHand) (s : State) : (issueAnswerWrite h s).pending = s.pending := rfl

@[simp] theorem answerAcked_win (h : InHand) (s : State) : (answerAcked h s).win = s.win := rfl
@[simp] theorem answerAcked_slots (h : InHand) (s : State) : (answerAcked h s).slots = s.slots := rfl
@[simp] theorem answerAcked_tap (h : InHand) (s : State) : (answerAcked h s).tap = s.tap := rfl
@[simp] theorem answerAcked_sig (h : InHand) (s : State) : (answerAcked h s).sig = s.sig := rfl
@[simp] theorem answerAcked_thermal (h : InHand) (s : State) : (answerAcked h s).thermal = s.thermal := rfl
@[simp] theorem answerAcked_free (h : InHand) (s : State) : (answerAcked h s).free = s.free := rfl
@[simp] theorem answerAcked_pending (h : InHand) (s : State) : (answerAcked h s).pending = s.pending := rfl

@[simp] theorem judgeWarning_win (s : State) : (judgeWarning s).win = s.win := rfl
@[simp] theorem judgeWarning_intake (s : State) : (judgeWarning s).intake = s.intake := rfl
@[simp] theorem judgeWarning_slots (s : State) : (judgeWarning s).slots = s.slots := rfl
@[simp] theorem judgeWarning_tap (s : State) : (judgeWarning s).tap = s.tap := rfl
@[simp] theorem judgeWarning_engine (s : State) : (judgeWarning s).engine = s.engine := rfl
@[simp] theorem judgeWarning_writer (s : State) : (judgeWarning s).writer = s.writer := rfl
@[simp] theorem judgeWarning_report (s : State) : (judgeWarning s).report = s.report := rfl
@[simp] theorem judgeWarning_port (s : State) : (judgeWarning s).port = s.port := rfl
@[simp] theorem judgeWarning_free (s : State) : (judgeWarning s).free = s.free := rfl
@[simp] theorem judgeWarning_pending (s : State) : (judgeWarning s).pending = s.pending := rfl

/-! ### The fields an operation writes -/

@[simp] theorem State.issue_port (s : State) (rs : List (Use × Access)) : (s.issue rs).port = s.port.issueAll rs := rfl
@[simp] theorem State.askReport_report (s : State) : (s.askReport).report = s.report.ask s.working := rfl
@[simp] theorem State.answer_writer (s : State) (a : Answer) : (s.answer a).writer = s.writer.add [.intake a] := rfl
@[simp] theorem State.answer_intake (s : State) (a : Answer) :
    (s.answer a).intake = { s.intake with phase := .writing } := rfl
@[simp] theorem State.error_sig (s : State) (e : ErrorCode) : (s.error e).sig = s.sig.error e := rfl
@[simp] theorem State.toOutcome_engine (s : State) (v : Verdict) : (s.toOutcome v).engine = .outcome := rfl
@[simp] theorem State.toOutcome_writer (s : State) (v : Verdict) :
    (s.toOutcome v).writer = s.writer.add (runningAnswer s.work v) := rfl
@[simp] theorem State.enterHalted_win (s : State) :
    (s.enterHalted).win = { s.win with state := .halted, cancel := none } := rfl
@[simp] theorem State.enterHalted_sig (s : State) : (s.enterHalted).sig = s.sig.error .exchangeFault := rfl
@[simp] theorem State.enterHalted_intake (s : State) :
    (s.enterHalted).intake = { s.intake with phase := .idle, install := false } := rfl
@[simp] theorem State.enterHalted_slots (s : State) : (s.enterHalted).slots = dropLoading s.slots := rfl
@[simp] theorem State.enterHalted_writer (s : State) : (s.enterHalted).writer = .reset := rfl
@[simp] theorem State.enterHalted_report (s : State) :
    (s.enterHalted).report = { s.report with writing := false, pending := false } := rfl
@[simp] theorem State.enterHalted_work (s : State) : (s.enterHalted).work = [] := rfl
@[simp] theorem State.enterHalted_engine (s : State) : (s.enterHalted).engine = .free := rfl
@[simp] theorem State.softReset_win (s : State) : (s.softReset).win = { Window.reset with xbase := s.win.xbase } := rfl
@[simp] theorem State.softReset_sig (s : State) : (s.softReset).sig = s.sig.softReset := rfl
@[simp] theorem State.softReset_intake (s : State) : (s.softReset).intake = .reset := rfl
@[simp] theorem State.softReset_slots (s : State) : (s.softReset).slots = dropLoading s.slots := rfl
@[simp] theorem State.softReset_writer (s : State) : (s.softReset).writer = .reset := rfl
@[simp] theorem State.softReset_report (s : State) :
    (s.softReset).report = { s.report with writing := false, pending := false } := rfl
@[simp] theorem State.softReset_work (s : State) : (s.softReset).work = [] := rfl
@[simp] theorem State.softReset_engine (s : State) : (s.softReset).engine = .free := rfl
@[simp] theorem startQuiet_tap (s : State) : (startQuiet s).tap = { s.tap with quiet := true } := rfl
@[simp] theorem startQuiet_sig (s : State) : (startQuiet s).sig = s.sig.conditionStart .quiet := rfl
@[simp] theorem startQuiet_report (s : State) : (startQuiet s).report = s.report.ask s.working := rfl

end Sys2Proof.Machine
end

