-- ==== Sys2Proof/Laws/Ops.lean ====
section
/-! SUPPORT. What the shared operations can do, said once each: the memory port and its replies, the writers' requests,
rounding, the completion map, the retire check, the completion check of a cancel. -/

namespace Sys2Proof.Machine

/-! ### The memory port -/

theorem Port.find_some {p : Port} {tag : Nat} {r : Request} (h : p.find tag = some r) :
    r.tag = tag ∧ r ∈ p.reqs :=
  ⟨by simpa using List.find?_some h, List.mem_of_find?_eq_some h⟩

theorem State.portWithout_eq (s : State) (tag : Nat) : s.portWithout tag = s.port.finish tag := by
  simp [State.portWithout, Port.finish, bne]

@[simp] theorem Port.mem_finish {p : Port} {tag : Nat} {r : Request} :
    r ∈ (p.finish tag).reqs ↔ r ∈ p.reqs ∧ r.tag ≠ tag := by
  simp [Port.finish]

@[simp] theorem Port.finish_nextTag (p : Port) (tag : Nat) : (p.finish tag).nextTag = p.nextTag := rfl

theorem Port.has_eq_true {p : Port} {sort : Use → Bool} :
    p.has sort = true ↔ ∃ r ∈ p.reqs, r.live = true ∧ sort r.use = true := by
  simp [Port.has]

theorem Port.has_eq_false {p : Port} {sort : Use → Bool} :
    p.has sort = false ↔ ∀ r ∈ p.reqs, r.live = true → sort r.use = false := by
  simp [Port.has]

@[simp] theorem Port.issueAll_nil (p : Port) : p.issueAll [] = p := rfl

@[simp] theorem Port.issueAll_one (p : Port) (use : Use) (access : Access) :
    p.issueAll [(use, access)]
      = { reqs := p.reqs ++ [{ tag := p.nextTag, use, access, live := true }], nextTag := p.nextTag + 1 } := rfl

/-- Requests issued stand behind the outstanding ones, numbered on from the next name, and are live. -/
theorem Port.issueAll_eq (p : Port) (rs : List (Use × Access)) :
    p.issueAll rs =
      { reqs := p.reqs ++ (rs.zipIdx p.nextTag).map
          (fun x => { tag := x.2, use := x.1.1, access := x.1.2, live := true })
        nextTag := p.nextTag + rs.length } := by
  induction rs generalizing p with
  | nil => simp
  | cons x rest ih => simp [Port.issueAll, ih, Nat.add_assoc, Nat.add_comm 1]

/-- What a client issues of its requests not yet issued: some from the front, one at least where none is outstanding. -/
theorem Port.issueSome_spec (p : Port) (m : Nat) (sort : Use → Bool) (rs : List (Use × Access)) :
    ∃ n, ((∃ r ∈ p.reqs, r.live = true ∧ sort r.use = true) ∨ 1 ≤ n)
      ∧ p.issueSome m sort rs = (p.issueAll (rs.take n), rs.drop n) := by
  refine ⟨issueCount m (p.has sort), ?_, rfl⟩
  by_cases h : p.has sort = true
  · exact .inl (Port.has_eq_true.1 h)
  · exact .inr (by simp [issueCount, h])

/-- The three things that can follow a reply to such a client. -/
theorem State.proceed_cases (s : State) (kind : Use → Bool) (unissued : List (Use × Access))
    (more finished : State → State) :
    (unissued ≠ [] ∧ s.proceed kind unissued more finished = more s)
      ∨ (unissued = [] ∧ s.port.has kind = true ∧ s.proceed kind unissued more finished = s)
      ∨ (unissued = [] ∧ s.port.has kind = false ∧ s.proceed kind unissued more finished = finished s) := by
  cases unissued <;> cases h : s.port.has kind <;> simp [State.proceed, h]

/-! ### Replies -/

/-- The four things a reply can do. -/
theorem onReply_cases (tag : Nat) (fits : Request → Bool) (k : Request → State → State) (s : State) :
    onReply tag fits k s = s
      ∨ ∃ r, s.port.find tag = some r ∧ fits r = true
        ∧ ((r.live = false ∧ onReply tag fits k s = { s with port := s.port.finish tag })
          ∨ (r.live = true ∧ onReply tag fits k s = k r { s with port := s.port.finish tag })) := by
  unfold onReply
  split
  · exact .inl rfl
  · next r hr =>
    split
    · next hf =>
      refine .inr ⟨r, hr, hf, ?_⟩
      cases hl : r.live <;> simp
    · exact .inl rfl

theorem onReply_none {tag : Nat} {s : State} (h : s.port.find tag = none) (fits : Request → Bool)
    (k : Request → State → State) : onReply tag fits k s = s := by
  simp [onReply, h]

theorem onReply_misfit {tag : Nat} {s : State} {r : Request} {fits : Request → Bool} (h : s.port.find tag = some r)
    (hf : fits r = false) (k : Request → State → State) : onReply tag fits k s = s := by
  simp [onReply, h, hf]

theorem onReply_dead {tag : Nat} {s : State} {r : Request} {fits : Request → Bool} (h : s.port.find tag = some r)
    (hf : fits r = true) (hl : r.live = false) (k : Request → State → State) :
    onReply tag fits k s = { s with port := s.portWithout tag } := by
  simp [onReply, h, hf, hl, State.portWithout_eq]

theorem onReply_live {tag : Nat} {s : State} {r : Request} {fits : Request → Bool} (h : s.port.find tag = some r)
    (hf : fits r = true) (hl : r.live = true) (k : Request → State → State) :
    onReply tag fits k s = k r { s with port := s.portWithout tag } := by
  simp [onReply, h, hf, hl, State.portWithout_eq]

/-- What holds of the state, does not depend on the port and is kept by the effect is kept by a reply. -/
theorem onReply_keeps {P : State → Prop} {tag : Nat} {fits : Request → Bool} {k : Request → State → State} {s : State}
    (hs : P s) (hp : ∀ port, P { s with port := port }) (hk : ∀ r u, P u → P (k r u)) : P (onReply tag fits k s) := by
  obtain h | ⟨r, -, -, ⟨-, h⟩ | ⟨-, h⟩⟩ := onReply_cases tag fits k s <;> rw [h]
  · exact hs
  · exact hp _
  · exact hk _ _ (hp _)

/-! ### Asking the writers -/

@[simp] theorem ReportWriter.ask_seq (r : ReportWriter) (w : Bool) : (r.ask w).seq = r.seq := rfl
@[simp] theorem ReportWriter.ask_writing (r : ReportWriter) (w : Bool) : (r.ask w).writing = r.writing := rfl
@[simp] theorem ReportWriter.ask_pending (r : ReportWriter) (w : Bool) : (r.ask w).pending = (r.pending || w) := rfl
@[simp] theorem OutcomeWriter.add_inHand (w : OutcomeWriter) (as : List WaitingAnswer) : (w.add as).inHand = w.inHand :=
  rfl
@[simp] theorem OutcomeWriter.add_waiting (w : OutcomeWriter) (as : List WaitingAnswer) :
    (w.add as).waiting = w.waiting ++ as := rfl

theorem State.working_iff (s : State) : s.working = true ↔ s.win.state = .run ∨ s.win.state = .hot := by
  simp [State.working]

theorem State.working_eq_decide (s : State) : s.working = decide (s.win.state = .run ∨ s.win.state = .hot) := by
  rw [Bool.eq_iff_iff, State.working_iff]; simp

/-! ### The lens line -/

/-- The end of a closing gap at the receiver. -/
theorem Receiver.hear_closes {r : Receiver} {run : Run} {bits : Nat} (h : r.closes run bits) (now : Stamp) :
    r.hear now (.idle bits) = (.afterGap, some run) := by
  obtain ⟨hr, hp, hb⟩ := h
  simp [Receiver.hear, hp, Config.closingGap, Nat.not_lt.2 hb, hr, Receiver.afterGap]

/-- A run closes at no other event. -/
theorem Receiver.hear_run {r : Receiver} {now : Stamp} {e : LineEvent} {run : Run} (h : (r.hear now e).2 = some run) :
    ∃ bits, e = .idle bits ∧ r.closes run bits := by
  cases e <;> simp only [Receiver.hear] at h <;> split at h
  case idle.isFalse bits hp =>
    split at h
    · cases h
    · next hb => exact ⟨bits, rfl, h, hp, Nat.not_lt.1 hb⟩
  all_goals cases h

/-- The two things an event of the lens line can do. -/
theorem hearEvent_cases (s : State) (e : LineEvent) :
    ((s.tap.rx.hear s.tap.timebase e).2 = none
        ∧ hearEvent s e = { s with tap := { s.tap with rx := (s.tap.rx.hear s.tap.timebase e).1 } })
      ∨ ∃ run bits, e = .idle bits ∧ s.tap.rx.closes run bits
        ∧ hearEvent s e = closeRun run { s with tap := { s.tap with rx := .afterGap } } := by
  cases h : (s.tap.rx.hear s.tap.timebase e).2 with
  | none => exact .inl ⟨rfl, by simp only [hearEvent, h]⟩
  | some run =>
    obtain ⟨bits, rfl, hc⟩ := Receiver.hear_run h
    exact .inr ⟨run, bits, rfl, hc, by simp only [hearEvent, Receiver.hear_closes hc]⟩

/-! ### Cancel -/

/-- The completion check of a cancel leaves the state alone or asks for the completion's report block write. -/
theorem State.cancelCheck_cases (s : State) :
    s.cancelCheck = s
      ∨ ∃ c, s.win.cancel = some c ∧ c.stage = .working ∧ s.cancelSettled c.boundary = true
        ∧ s.cancelCheck = { s with
            win := { s.win with cancel := some { c with stage := .reportAsked } }
            report := s.report.ask s.working } := by
  unfold State.cancelCheck
  split
  · exact .inl rfl
  · next c hc =>
    split
    · next h => exact .inr ⟨c, hc, h.1, h.2, rfl⟩
    · exact .inl rfl

theorem State.cancelCheck_of_none {s : State} (h : s.win.cancel = none) : s.cancelCheck = s := by
  simp [State.cancelCheck, h]

/-! ### Rounding -/

/-- Nearest-away rounding, as the manual words it. -/
theorem nearestAway_spec (num : Int) {den : Nat} (h : 0 < den) : IsNearestAway (nearestAway num den) num den := by
  have hd : 0 < 2 * den := by omega
  have h1 := Nat.div_add_mod (2 * num.natAbs + den) (2 * den)
  have h2 := Nat.mod_lt (2 * num.natAbs + den) hd
  generalize hq : (2 * num.natAbs + den) / (2 * den) = q at h1
  generalize (2 * num.natAbs + den) % (2 * den) = m at h1 h2
  have h3 : (2 * (den : Int) * q + m) = 2 * num.natAbs + den := by exact_mod_cast h1
  have h2' : (m : Int) < 2 * den := by exact_mod_cast h2
  have hm : (0 : Int) ≤ m := Int.natCast_nonneg m
  have hq0 : (0 : Int) ≤ q * den := by positivity
  unfold nearestAway IsNearestAway
  rw [hq]
  by_cases hn : num < 0
  · have ha : ((num.natAbs : Int)) = -num := by omega
    rw [if_pos hn]
    rw [ha] at h3
    have e : (-(q : Int) * den - num) = -((q : Int) * den + num) := by ring
    rw [e, abs_neg]
    constructor
    · rcases abs_cases ((q : Int) * den + num) with ⟨hc, -⟩ | ⟨hc, -⟩ <;> rw [hc] <;> nlinarith
    · intro ht
      rw [abs_of_neg hn, neg_mul, abs_neg, abs_of_nonneg hq0]
      rcases abs_cases ((q : Int) * den + num) with ⟨hc, -⟩ | ⟨hc, -⟩ <;> rw [hc] at ht <;> nlinarith
  · have ha : ((num.natAbs : Int)) = num := by omega
    rw [if_neg hn]
    rw [ha] at h3
    constructor
    · rcases abs_cases ((q : Int) * den - num) with ⟨hc, -⟩ | ⟨hc, -⟩ <;> rw [hc] <;> nlinarith
    · intro ht
      rw [abs_of_nonneg (by omega : (0 : Int) ≤ num), abs_of_nonneg hq0]
      rcases abs_cases ((q : Int) * den - num) with ⟨hc, -⟩ | ⟨hc, -⟩ <;> rw [hc] at ht <;> nlinarith

@[simp] theorem nearestAway_zero (den : Nat) : nearestAway 0 den = 0 := by
  unfold nearestAway
  have : (2 * (0 : Int).natAbs + den) / (2 * den) = 0 := by
    rcases Nat.eq_zero_or_pos den with h | h
    · simp [h]
    · simp only [Int.natAbs_zero]; exact Nat.div_eq_of_lt (by omega)
  simp only [this]; simp

theorem nearestAway_nonneg {num : Int} (h : 0 ≤ num) (den : Nat) : 0 ≤ nearestAway num den := by
  unfold nearestAway
  rw [if_neg (by omega)]
  exact Int.natCast_nonneg _

theorem nearestAway_neg (num : Int) (den : Nat) : nearestAway (-num) den = -nearestAway num den := by
  rcases lt_trichotomy num 0 with h | h | h
  · simp only [nearestAway, Int.natAbs_neg, if_pos h, if_neg (show ¬ -num < 0 by omega)]; omega
  · subst h; simp
  · simp only [nearestAway, Int.natAbs_neg, if_neg (show ¬ num < 0 by omega), if_pos (show -num < 0 by omega)]

/-- A part `x * m / d` of `x`, with `m ≤ d`, rounds to between 0 and `x`. -/
theorem nearestAway_part_le {x : Int} {m d : Nat} (hx : 0 ≤ x) (hm : m ≤ d) (hd : 0 < d) :
    nearestAway (x * m) d ≤ x := by
  have h0 : 0 ≤ x * m := by positivity
  have ha : ((x * m).natAbs : Int) = x * m := by omega
  unfold nearestAway
  rw [if_neg (by omega)]
  have hk : (2 * (x * m).natAbs + d) / (2 * d) ≤ x.toNat := by
    apply Nat.le_of_lt_succ
    rw [Nat.div_lt_iff_lt_mul (by omega)]
    have hx' : ((x.toNat : Int)) = x := Int.toNat_of_nonneg hx
    have : x * m ≤ x * d := by gcongr
    have : ((2 * (x * m).natAbs + d : Nat) : Int) < ((x.toNat.succ * (2 * d) : Nat) : Int) := by
      push_cast [Nat.succ_eq_add_one]
      rw [abs_of_nonneg h0, hx']
      nlinarith
    exact_mod_cast this
  omega

/-- Interpolated values lie between their ends. -/
theorem nearestAway_between (a b : Int) {m d : Nat} (hm : m ≤ d) (hd : 0 < d) :
    min a b ≤ a + nearestAway ((b - a) * m) d ∧ a + nearestAway ((b - a) * m) d ≤ max a b := by
  rcases le_total a b with h | h
  · have h1 := nearestAway_part_le (x := b - a) (by omega) hm hd
    have h2 := nearestAway_nonneg (num := (b - a) * m) (by have : 0 ≤ b - a := by omega
                                                           positivity) d
    omega
  · have h1 := nearestAway_part_le (x := a - b) (by omega) hm hd
    have h2 := nearestAway_nonneg (num := (a - b) * m) (by have : 0 ≤ a - b := by omega
                                                           positivity) d
    have h3 : (b - a) * (m : Int) = -((a - b) * m) := by ring
    rw [h3, nearestAway_neg]
    omega

/-! ### The lookup -/

/-- What R42 leaves open of the status of a lookup that no row of its table covers. -/
theorem freeStatus_spec (hasPair : Bool) (n : Nat) :
    freeStatus hasPair n ≠ .exact ∧ (freeStatus hasPair n = .between → hasPair = true) := by
  unfold freeStatus
  split <;> cases hasPair <;> simp

@[simp] theorem freeMember_nil {α : Type} (n : Nat) : freeMember n ([] : List α) = none := rfl
@[simp] theorem freeMember_one {α : Type} (n : Nat) (x : α) : freeMember n [x] = some x := rfl

/-- A list with a member has a free one, and it is one of the list's. -/
theorem freeMember_spec {α : Type} (n : Nat) {l : List α} (h : l ≠ []) : ∃ x ∈ l, freeMember n l = some x := by
  match l with
  | [] => exact absurd rfl h
  | [x] => exact ⟨x, List.mem_singleton_self x, rfl⟩
  | x :: y :: rest =>
    have hlt : Config.freeChoice n % (rest.length + 2) < (x :: y :: rest).length := Nat.mod_lt _ (by omega)
    refine ⟨_, ?_, rfl⟩
    rw [List.getD_eq_getElem _ _ hlt]
    exact List.getElem_mem hlt

/-- R43: a BETWEEN lookup with a pair around its stamp interpolates within such a pair. -/
theorem betweenFocal_spec {log : List Sample} (n : Nat) {t : Stamp} (h : straddling log t ≠ []) :
    ∃ p ∈ straddling log t, betweenFocal log n t = interpolate p.1 p.2 t := by
  obtain ⟨p, hp, he⟩ := freeMember_spec n h
  exact ⟨p, hp, by rw [betweenFocal, he]⟩

/-! ### The completion map and the retire check -/

theorem getLsbD_setFlag (map : BitVec 64) (seq : Count) {i : Nat} :
    (setFlag map seq).getLsbD i = (map.getLsbD i || decide (i = seq.toNat % 64)) := by
  simp only [setFlag, BitVec.getLsbD_or, BitVec.getLsbD_shiftLeft, BitVec.getLsbD_one]
  congr 1
  have : seq.toNat % 64 < 64 := Nat.mod_lt _ (by omega)
  by_cases hi : i = seq.toNat % 64
  · simp [hi, this]
  · by_cases hl : i < seq.toNat % 64
    · simp [hi, hl]
    · have : i - seq.toNat % 64 ≠ 0 := by omega
      simp [hi, this]

theorem getLsbD_clearFlag (map : BitVec 64) (seq : Count) {i : Nat} (h : i < 64) :
    (clearFlag map seq).getLsbD i = (map.getLsbD i && decide (i ≠ seq.toNat % 64)) := by
  have hs := getLsbD_setFlag 0#64 seq (i := i)
  simp only [setFlag, BitVec.getLsbD_or, BitVec.getLsbD_zero, Bool.false_or] at hs
  rw [clearFlag, BitVec.getLsbD_and, BitVec.getLsbD_not, hs]
  simp [h]

/-- The retired count moves by some `k` up to the fuel, over set flags, and stops at the fuel's end or a clear flag. -/
theorem retireFrom_spec (map : BitVec 64) (fuel : Nat) (retired : Count) :
    ∃ k ≤ fuel, retireFrom map fuel retired = retired + BitVec.ofNat 16 k
      ∧ (∀ j < k, flagOf map (retired + BitVec.ofNat 16 j) = true)
      ∧ (k = fuel ∨ flagOf map (retireFrom map fuel retired) = false) := by
  induction fuel generalizing retired with
  | zero => exact ⟨0, by simp [retireFrom]⟩
  | succ fuel ih =>
    by_cases h : flagOf map retired = true
    · obtain ⟨k, hk, he, hf, hs⟩ := ih (retired + 1)
      have step : ∀ j : Nat, retired + BitVec.ofNat 16 (j + 1) = retired + 1 + BitVec.ofNat 16 j := by
        intro j; rw [BitVec.ofNat_add]; ac_rfl
      refine ⟨k + 1, by omega, ?_, ?_, ?_⟩
      · rw [retireFrom, if_pos h, he, step]
      · intro j hj
        cases j with
        | zero => simpa only [BitVec.ofNat_eq_ofNat, BitVec.add_zero] using h
        | succ j => rw [step]; exact hf j (by omega)
      · simp only [retireFrom, h, if_true]
        rcases hs with hs | hs
        · left; omega
        · exact .inr hs
    · have h' : retireFrom map (fuel + 1) retired = retired := by rw [retireFrom, if_neg h]
      exact ⟨0, by omega, by rw [h']; exact (BitVec.add_zero _).symm, by simp, .inr (by simpa [h'] using h)⟩

end Sys2Proof.Machine
end

