-- ==== Sys2Proof/Laws/Arith.lean ====
section
/-! SUPPORT. Laws of the arithmetic: saturating counters, little-endian fields, stamps, running counts, notes,
clamping. -/

namespace Sys2Proof.Machine

theorem satInc_eq (c : BitVec 16) : satInc c = BitVec.ofNat 16 (min 65535 (c.toNat + 1)) := by
  unfold satInc
  split
  · next h => subst h; rfl
  · next h =>
    have : c.toNat ≠ 65535 := fun h' => h (BitVec.eq_of_toNat_eq h')
    have := c.isLt
    apply BitVec.eq_of_toNat_eq
    rw [Nat.min_eq_right (by omega), BitVec.toNat_ofNat, BitVec.toNat_add]; rfl

theorem within_iff (lo hi x : Int) : within lo hi x = true ↔ lo ≤ x ∧ x ≤ hi := by simp [within]

theorem clampIndex_lt (n : Nat) (i : Int) (h : 1 ≤ n) : clampIndex n i < n := by
  unfold clampIndex clampInt; omega

theorem Rgb.get_tabulate {α : Type} (f : Channel → α) (c : Channel) : (Rgb.tabulate f).get c = f c := by
  cases c <;> rfl

/-! ### Fields and bytes -/

@[simp] theorem leBytes_length (n v : Nat) : (leBytes n v).length = n := by
  induction n generalizing v with
  | zero => rfl
  | succ n ih => simp [leBytes, ih]

@[simp] theorem signedBytes_length (x : Int) : (signedBytes x).length = 2 := leBytes_length _ _

theorem leValue_leBytes (n v : Nat) : leValue (leBytes n v) = v % 256 ^ n := by
  induction n generalizing v with
  | zero => simp [leBytes, leValue, Nat.mod_one]
  | succ n ih =>
    rw [leBytes, leValue, ih, BitVec.toNat_ofNat, show (256 : Nat) ^ (n + 1) = 256 * 256 ^ n from Nat.pow_succ',
      Nat.mod_mul]

theorem leValue_lt (l : List Byte) : leValue l < 256 ^ l.length := by
  induction l with
  | nil => simp [leValue]
  | cons b l ih => rw [leValue, List.length_cons, Nat.pow_succ']; have := b.isLt; omega

theorem fieldAt_lt (b : List Byte) (o n : Nat) : fieldAt b o n < 256 ^ n := by
  unfold fieldAt
  exact (leValue_lt _).trans_le (Nat.pow_le_pow_right (by norm_num) (List.length_take_le _ _))

theorem fieldAt_zero (b : List Byte) (o : Nat) : fieldAt b o 0 = 0 := by simp [fieldAt, leValue]

theorem fieldAt_succ (b : List Byte) (o n : Nat) :
    fieldAt b o (n + 1) = (b.getD o 0).toNat + 256 * fieldAt b (o + 1) n := by
  unfold fieldAt
  by_cases h : o < b.length
  · rw [List.drop_eq_getElem_cons h, List.take_succ_cons, leValue, List.getD_eq_getElem _ _ h]
  · rw [List.drop_eq_nil_of_le (by omega), List.drop_eq_nil_of_le (by omega), List.getD_eq_default _ _ (by omega)]
    simp [leValue]

theorem fieldAt_one (b : List Byte) (o : Nat) : fieldAt b o 1 = (b.getD o 0).toNat := by
  rw [fieldAt_succ, fieldAt_zero]; rfl

theorem fieldAt_two (b : List Byte) (o : Nat) :
    fieldAt b o 2 = (b.getD o 0).toNat + 256 * (b.getD (o + 1) 0).toNat := by
  rw [fieldAt_succ, fieldAt_one]

/-- A field behind the first `k` bytes of a record is a field of the rest. -/
theorem fieldAt_append (a b : List Byte) (k off n : Nat) (h : a.length = k) :
    fieldAt (a ++ b) (k + off) n = fieldAt b off n := by
  unfold fieldAt; rw [List.drop_append, List.drop_eq_nil_of_le (by omega)]; simp [← h]

theorem fieldAt_leBytes (n v : Nat) (b : List Byte) : fieldAt (leBytes n v ++ b) 0 n = v % 256 ^ n := by
  unfold fieldAt; rw [List.drop_zero, List.take_left' (leBytes_length n v), leValue_leBytes]

theorem signedAt_append (a b : List Byte) (k off : Nat) (h : a.length = k) :
    signedAt (a ++ b) (k + off) = signedAt b off := by
  unfold signedAt; rw [fieldAt_append a b k off 2 h]

theorem signedAt_signedBytes (x : Int) (b : List Byte) (h1 : -32768 ≤ x) (h2 : x ≤ 32767) :
    signedAt (signedBytes x ++ b) 0 = x := by
  unfold signedAt signedBytes
  rw [fieldAt_leBytes, show (256 ^ 2) = 2 ^ 16 by norm_num, Nat.mod_eq_of_lt (BitVec.isLt _), BitVec.ofNat_toNat,
    BitVec.setWidth_eq, BitVec.toInt_ofInt]
  apply Int.bmod_eq_of_le <;> omega

theorem leBytes_two (n : BitVec 16) : leBytes 2 n.toNat = [n.extractLsb' 0 8, n.extractLsb' 8 8] := by
  simp only [leBytes]
  have h1 : BitVec.ofNat 8 n.toNat = n.extractLsb' 0 8 := by apply BitVec.eq_of_toNat_eq; simp
  have h2 : BitVec.ofNat 8 (n.toNat / 256) = n.extractLsb' 8 8 := by
    apply BitVec.eq_of_toNat_eq; simp [Nat.shiftRight_eq_div_pow]
  rw [h1, h2]

/-! ### Stamps and counts -/

@[simp] theorem stampDiff_self (a : Stamp) : stampDiff a a = 0 := by simp [stampDiff]

theorem stampDiff_asymm (a b : Stamp) (h : 0 < stampDiff a b) : ¬ 0 < stampDiff b a := by
  unfold stampDiff at *
  have e : a - b = -(b - a) := by ring
  rw [e]
  generalize b - a = x at *
  rw [BitVec.toInt_neg]
  have := BitVec.toInt_lt (x := x)
  norm_num at *
  rw [Int.bmod_eq_of_le] <;> omega

theorem stampDiff_add (a t b : Stamp) (h1 : 0 < stampDiff a t) (h2 : 0 < stampDiff t b) (h3 : 0 < stampDiff a b) :
    stampDiff a b = stampDiff a t + stampDiff t b := by
  unfold stampDiff at *
  have e : b - a = (t - a) + (b - t) := by ring
  rw [e] at h3 ⊢
  generalize t - a = x at *
  generalize b - t = y at *
  rw [BitVec.toInt_add] at h3 ⊢
  have := BitVec.toInt_lt (x := x)
  have := BitVec.toInt_lt (x := y)
  norm_num at *
  rw [Int.bmod_def] at *
  split at h3 <;> split <;> omega

@[simp] theorem ahead_self (r : Count) : ahead r r = 0 := by unfold ahead; simp

/-- The distances from a retired count that has moved on by `k`, no further than to `c`. -/
theorem ahead_advance (r c x : Count) (k : Nat) (hk : k ≤ ahead r c) (hx : ahead r c ≤ ahead r x) :
    ahead (r + BitVec.ofNat 16 k) x = ahead r x - k := by
  unfold ahead at *
  have hc := c.isLt
  have hr := r.isLt
  have hxx := x.isLt
  simp only [BitVec.toNat_sub, BitVec.toNat_add, BitVec.toNat_ofNat] at *
  omega

/-- A count that has not reached `x` and moves on by one does not pass it. -/
theorem ahead_succ (r t x : Count) (h : ahead r t ≤ ahead r x) (hne : t ≠ x) :
    ahead r (t + 1) = ahead r t + 1 ∧ ahead r (t + 1) ≤ ahead r x := by
  unfold ahead at *
  have ht := t.isLt
  have hr := r.isLt
  have hx := x.isLt
  have : t.toNat ≠ x.toNat := fun h => hne (BitVec.eq_of_toNat_eq h)
  have h1 : BitVec.toNat (1 : BitVec 16) = 1 := rfl
  simp only [BitVec.toNat_sub, BitVec.toNat_add, h1] at *
  omega

/-! ### Notes and optional checks -/

theorem hasNote_add (n : BitVec 16) (a b : Note) : hasNote (addNote n a) b = (hasNote n b || decide (a = b)) := by
  cases a <;> cases b <;> simp [hasNote, addNote, Note.bit]

theorem hasNote_if (c : Bool) (n : BitVec 16) (a b : Note) :
    hasNote (noteIf c a n) b = (hasNote n b || (c && decide (a = b))) := by
  cases c <;> simp [noteIf, hasNote_add]

theorem require_eq_none (c : Bool) (v : Violation) : require c v = none ↔ c = true := by cases c <;> simp [require]

end Sys2Proof.Machine
end

