-- ==== Sys2Proof/Laws/Frames.lean ====
section
/-! SUPPORT. What the meanings and the operations they share leave as it was, one lemma per field. -/

namespace Sys2Proof.Machine

@[simp] theorem endQuiet_win (s : State) : (endQuiet s).win = s.win := by unfold endQuiet; split <;> rfl
@[simp] theorem endQuiet_intake (s : State) : (endQuiet s).intake = s.intake := by unfold endQuiet; split <;> rfl
@[simp] theorem endQuiet_slots (s : State) : (endQuiet s).slots = s.slots := by unfold endQuiet; split <;> rfl
@[simp] theorem endQuiet_work (s : State) : (endQuiet s).work = s.work := by unfold endQuiet; split <;> rfl
@[simp] theorem endQuiet_engine (s : State) : (endQuiet s).engine = s.engine := by unfold endQuiet; split <;> rfl
@[simp] theorem endQuiet_writer (s : State) : (endQuiet s).writer = s.writer := by unfold endQuiet; split <;> rfl
@[simp] theorem endQuiet_port (s : State) : (endQuiet s).port = s.port := by unfold endQuiet; split <;> rfl
@[simp] theorem endQuiet_thermal (s : State) : (endQuiet s).thermal = s.thermal := by unfold endQuiet; split <;> rfl
@[simp] theorem endQuiet_free (s : State) : (endQuiet s).free = s.free := by unfold endQuiet; split <;> rfl
@[simp] theorem endQuiet_pending (s : State) : (endQuiet s).pending = s.pending := by unfold endQuiet; split <;> rfl

@[simp] theorem track_win (m : Message) (s : State) : (track m s).win = s.win := by unfold track; split <;> rfl
@[simp] theorem track_intake (m : Message) (s : State) : (track m s).intake = s.intake := by
  unfold track; split <;> rfl
@[simp] theorem track_slots (m : Message) (s : State) : (track m s).slots = s.slots := by
  unfold track; split <;> rfl
@[simp] theorem track_work (m : Message) (s : State) : (track m s).work = s.work := by
  unfold track; split <;> rfl
@[simp] theorem track_engine (m : Message) (s : State) : (track m s).engine = s.engine := by
  unfold track; split <;> rfl
@[simp] theorem track_writer (m : Message) (s : State) : (track m s).writer = s.writer := by
  unfold track; split <;> rfl
@[simp] theorem track_port (m : Message) (s : State) : (track m s).port = s.port := by
  unfold track; split <;> rfl
@[simp] theorem track_thermal (m : Message) (s : State) : (track m s).thermal = s.thermal := by
  unfold track; split <;> rfl
@[simp] theorem track_free (m : Message) (s : State) : (track m s).free = s.free := by
  unfold track; split <;> rfl
@[simp] theorem track_pending (m : Message) (s : State) : (track m s).pending = s.pending := by
  unfold track; split <;> rfl

@[simp] theorem hearMessage_win (m : Message) (s : State) : (hearMessage m s).win = s.win := by
  unfold hearMessage; dsimp only; split <;> (try split) <;> simp
@[simp] theorem hearMessage_intake (m : Message) (s : State) : (hearMessage m s).intake = s.intake := by
  unfold hearMessage; dsimp only; split <;> (try split) <;> simp
@[simp] theorem hearMessage_slots (m : Message) (s : State) : (hearMessage m s).slots = s.slots := by
  unfold hearMessage; dsimp only; split <;> (try split) <;> simp
@[simp] theorem hearMessage_work (m : Message) (s : State) : (hearMessage m s).work = s.work := by
  unfold hearMessage; dsimp only; split <;> (try split) <;> simp
@[simp] theorem hearMessage_engine (m : Message) (s : State) : (hearMessage m s).engine = s.engine := by
  unfold hearMessage; dsimp only; split <;> (try split) <;> simp
@[simp] theorem hearMessage_writer (m : Message) (s : State) : (hearMessage m s).writer = s.writer := by
  unfold hearMessage; dsimp only; split <;> (try split) <;> simp
@[simp] theorem hearMessage_port (m : Message) (s : State) : (hearMessage m s).port = s.port := by
  unfold hearMessage; dsimp only; split <;> (try split) <;> simp
@[simp] theorem hearMessage_thermal (m : Message) (s : State) : (hearMessage m s).thermal = s.thermal := by
  unfold hearMessage; dsimp only; split <;> (try split) <;> simp
@[simp] theorem hearMessage_free (m : Message) (s : State) : (hearMessage m s).free = s.free := by
  unfold hearMessage; dsimp only; split <;> (try split) <;> simp
@[simp] theorem hearMessage_pending (m : Message) (s : State) : (hearMessage m s).pending = s.pending := by
  unfold hearMessage; dsimp only; split <;> (try split) <;> simp

@[simp] theorem closeRun_win (r : Run) (s : State) : (closeRun r s).win = s.win := by
  unfold closeRun; split <;> simp
@[simp] theorem closeRun_intake (r : Run) (s : State) : (closeRun r s).intake = s.intake := by
  unfold closeRun; split <;> simp
@[simp] theorem closeRun_slots (r : Run) (s : State) : (closeRun r s).slots = s.slots := by
  unfold closeRun; split <;> simp
@[simp] theorem closeRun_work (r : Run) (s : State) : (closeRun r s).work = s.work := by
  unfold closeRun; split <;> simp
@[simp] theorem closeRun_engine (r : Run) (s : State) : (closeRun r s).engine = s.engine := by
  unfold closeRun; split <;> simp
@[simp] theorem closeRun_writer (r : Run) (s : State) : (closeRun r s).writer = s.writer := by
  unfold closeRun; split <;> simp
@[simp] theorem closeRun_port (r : Run) (s : State) : (closeRun r s).port = s.port := by
  unfold closeRun; split <;> simp
@[simp] theorem closeRun_thermal (r : Run) (s : State) : (closeRun r s).thermal = s.thermal := by
  unfold closeRun; split <;> simp
@[simp] theorem closeRun_free (r : Run) (s : State) : (closeRun r s).free = s.free := by
  unfold closeRun; split <;> simp
@[simp] theorem closeRun_pending (r : Run) (s : State) : (closeRun r s).pending = s.pending := by
  unfold closeRun; split <;> simp

@[simp] theorem hearEvent_win (s : State) (e : LineEvent) : (hearEvent s e).win = s.win := by
  unfold hearEvent; dsimp only; split <;> simp
@[simp] theorem hearEvent_intake (s : State) (e : LineEvent) : (hearEvent s e).intake = s.intake := by
  unfold hearEvent; dsimp only; split <;> simp
@[simp] theorem hearEvent_slots (s : State) (e : LineEvent) : (hearEvent s e).slots = s.slots := by
  unfold hearEvent; dsimp only; split <;> simp
@[simp] theorem hearEvent_work (s : State) (e : LineEvent) : (hearEvent s e).work = s.work := by
  unfold hearEvent; dsimp only; split <;> simp
@[simp] theorem hearEvent_engine (s : State) (e : LineEvent) : (hearEvent s e).engine = s.engine := by
  unfold hearEvent; dsimp only; split <;> simp
@[simp] theorem hearEvent_writer (s : State) (e : LineEvent) : (hearEvent s e).writer = s.writer := by
  unfold hearEvent; dsimp only; split <;> simp
@[simp] theorem hearEvent_port (s : State) (e : LineEvent) : (hearEvent s e).port = s.port := by
  unfold hearEvent; dsimp only; split <;> simp
@[simp] theorem hearEvent_thermal (s : State) (e : LineEvent) : (hearEvent s e).thermal = s.thermal := by
  unfold hearEvent; dsimp only; split <;> simp
@[simp] theorem hearEvent_free (s : State) (e : LineEvent) : (hearEvent s e).free = s.free := by
  unfold hearEvent; dsimp only; split <;> simp
@[simp] theorem hearEvent_pending (s : State) (e : LineEvent) : (hearEvent s e).pending = s.pending := by
  unfold hearEvent; dsimp only; split <;> simp

/-- What every event of a lens line keeps is kept by the line. -/
theorem hearLine_keeps {P : State → Prop} (hp : ∀ s e, P s → P (hearEvent s e)) {s : State} (hs : P s)
    (line : List LineEvent) : P (line.foldl hearEvent s) := by
  induction line generalizing s with
  | nil => exact hs
  | cons e line ih => exact ih (hp s e hs)

@[simp] theorem hearLine_win (l : List LineEvent) (s : State) : (l.foldl hearEvent s).win = s.win :=
  hearLine_keeps (P := fun u => u.win = s.win) (fun u e h => (hearEvent_win u e).trans h) rfl l
@[simp] theorem hearLine_intake (l : List LineEvent) (s : State) : (l.foldl hearEvent s).intake = s.intake :=
  hearLine_keeps (P := fun u => u.intake = s.intake) (fun u e h => (hearEvent_intake u e).trans h) rfl l
@[simp] theorem hearLine_slots (l : List LineEvent) (s : State) : (l.foldl hearEvent s).slots = s.slots :=
  hearLine_keeps (P := fun u => u.slots = s.slots) (fun u e h => (hearEvent_slots u e).trans h) rfl l
@[simp] theorem hearLine_work (l : List LineEvent) (s : State) : (l.foldl hearEvent s).work = s.work :=
  hearLine_keeps (P := fun u => u.work = s.work) (fun u e h => (hearEvent_work u e).trans h) rfl l
@[simp] theorem hearLine_engine (l : List LineEvent) (s : State) : (l.foldl hearEvent s).engine = s.engine :=
  hearLine_keeps (P := fun u => u.engine = s.engine) (fun u e h => (hearEvent_engine u e).trans h) rfl l
@[simp] theorem hearLine_writer (l : List LineEvent) (s : State) : (l.foldl hearEvent s).writer = s.writer :=
  hearLine_keeps (P := fun u => u.writer = s.writer) (fun u e h => (hearEvent_writer u e).trans h) rfl l
@[simp] theorem hearLine_port (l : List LineEvent) (s : State) : (l.foldl hearEvent s).port = s.port :=
  hearLine_keeps (P := fun u => u.port = s.port) (fun u e h => (hearEvent_port u e).trans h) rfl l
@[simp] theorem hearLine_thermal (l : List LineEvent) (s : State) : (l.foldl hearEvent s).thermal = s.thermal :=
  hearLine_keeps (P := fun u => u.thermal = s.thermal) (fun u e h => (hearEvent_thermal u e).trans h) rfl l
@[simp] theorem hearLine_free (l : List LineEvent) (s : State) : (l.foldl hearEvent s).free = s.free :=
  hearLine_keeps (P := fun u => u.free = s.free) (fun u e h => (hearEvent_free u e).trans h) rfl l
@[simp] theorem hearLine_pending (l : List LineEvent) (s : State) : (l.foldl hearEvent s).pending = s.pending :=
  hearLine_keeps (P := fun u => u.pending = s.pending) (fun u e h => (hearEvent_pending u e).trans h) rfl l

@[simp] theorem State.stopBand_win (s : State) (v : Verdict) : (s.stopBand v).win = s.win := by
  unfold State.stopBand; dsimp only; split <;> rfl
@[simp] theorem State.stopBand_intake (s : State) (v : Verdict) : (s.stopBand v).intake = s.intake := by
  unfold State.stopBand; dsimp only; split <;> rfl
@[simp] theorem State.stopBand_slots (s : State) (v : Verdict) : (s.stopBand v).slots = s.slots := by
  unfold State.stopBand; dsimp only; split <;> rfl
@[simp] theorem State.stopBand_tap (s : State) (v : Verdict) : (s.stopBand v).tap = s.tap := by
  unfold State.stopBand; dsimp only; split <;> rfl
@[simp] theorem State.stopBand_work (s : State) (v : Verdict) : (s.stopBand v).work = s.work := by
  unfold State.stopBand; dsimp only; split <;> rfl
@[simp] theorem State.stopBand_report (s : State) (v : Verdict) : (s.stopBand v).report = s.report := by
  unfold State.stopBand; dsimp only; split <;> rfl
@[simp] theorem State.stopBand_sig (s : State) (v : Verdict) : (s.stopBand v).sig = s.sig := by
  unfold State.stopBand; dsimp only; split <;> rfl
@[simp] theorem State.stopBand_thermal (s : State) (v : Verdict) : (s.stopBand v).thermal = s.thermal := by
  unfold State.stopBand; dsimp only; split <;> rfl
@[simp] theorem State.stopBand_free (s : State) (v : Verdict) : (s.stopBand v).free = s.free := by
  unfold State.stopBand; dsimp only; split <;> rfl
@[simp] theorem State.stopBand_pending (s : State) (v : Verdict) : (s.stopBand v).pending = s.pending := by
  unfold State.stopBand; dsimp only; split <;> rfl

@[simp] theorem State.cancelCheck_intake (s : State) : (s.cancelCheck).intake = s.intake := by
  unfold State.cancelCheck; split <;> [skip; split] <;> rfl
@[simp] theorem State.cancelCheck_slots (s : State) : (s.cancelCheck).slots = s.slots := by
  unfold State.cancelCheck; split <;> [skip; split] <;> rfl
@[simp] theorem State.cancelCheck_tap (s : State) : (s.cancelCheck).tap = s.tap := by
  unfold State.cancelCheck; split <;> [skip; split] <;> rfl
@[simp] theorem State.cancelCheck_work (s : State) : (s.cancelCheck).work = s.work := by
  unfold State.cancelCheck; split <;> [skip; split] <;> rfl
@[simp] theorem State.cancelCheck_engine (s : State) : (s.cancelCheck).engine = s.engine := by
  unfold State.cancelCheck; split <;> [skip; split] <;> rfl
@[simp] theorem State.cancelCheck_writer (s : State) : (s.cancelCheck).writer = s.writer := by
  unfold State.cancelCheck; split <;> [skip; split] <;> rfl
@[simp] theorem State.cancelCheck_port (s : State) : (s.cancelCheck).port = s.port := by
  unfold State.cancelCheck; split <;> [skip; split] <;> rfl
@[simp] theorem State.cancelCheck_sig (s : State) : (s.cancelCheck).sig = s.sig := by
  unfold State.cancelCheck; split <;> [skip; split] <;> rfl
@[simp] theorem State.cancelCheck_thermal (s : State) : (s.cancelCheck).thermal = s.thermal := by
  unfold State.cancelCheck; split <;> [skip; split] <;> rfl
@[simp] theorem State.cancelCheck_free (s : State) : (s.cancelCheck).free = s.free := by
  unfold State.cancelCheck; split <;> [skip; split] <;> rfl
@[simp] theorem State.cancelCheck_pending (s : State) : (s.cancelCheck).pending = s.pending := by
  unfold State.cancelCheck; split <;> [skip; split] <;> rfl

@[simp] theorem State.issueMore_win (s : State) : (s.issueMore).win = s.win := by
  unfold State.issueMore; split <;> rfl
@[simp] theorem State.issueMore_intake (s : State) : (s.issueMore).intake = s.intake := by
  unfold State.issueMore; split <;> rfl
@[simp] theorem State.issueMore_slots (s : State) : (s.issueMore).slots = s.slots := by
  unfold State.issueMore; split <;> rfl
@[simp] theorem State.issueMore_tap (s : State) : (s.issueMore).tap = s.tap := by
  unfold State.issueMore; split <;> rfl
@[simp] theorem State.issueMore_work (s : State) : (s.issueMore).work = s.work := by
  unfold State.issueMore; split <;> rfl
@[simp] theorem State.issueMore_writer (s : State) : (s.issueMore).writer = s.writer := by
  unfold State.issueMore; split <;> rfl
@[simp] theorem State.issueMore_report (s : State) : (s.issueMore).report = s.report := by
  unfold State.issueMore; split <;> rfl
@[simp] theorem State.issueMore_sig (s : State) : (s.issueMore).sig = s.sig := by
  unfold State.issueMore; split <;> rfl
@[simp] theorem State.issueMore_thermal (s : State) : (s.issueMore).thermal = s.thermal := by
  unfold State.issueMore; split <;> rfl
@[simp] theorem State.issueMore_pending (s : State) : (s.issueMore).pending = s.pending := by
  unfold State.issueMore; split <;> rfl

@[simp] theorem computeBand_win (s : State) : (computeBand s).win = s.win := by
  unfold computeBand; split <;> simp
@[simp] theorem computeBand_intake (s : State) : (computeBand s).intake = s.intake := by
  unfold computeBand; split <;> simp
@[simp] theorem computeBand_slots (s : State) : (computeBand s).slots = s.slots := by
  unfold computeBand; split <;> simp
@[simp] theorem computeBand_tap (s : State) : (computeBand s).tap = s.tap := by
  unfold computeBand; split <;> simp
@[simp] theorem computeBand_work (s : State) : (computeBand s).work = s.work := by
  unfold computeBand; split <;> simp
@[simp] theorem computeBand_writer (s : State) : (computeBand s).writer = s.writer := by
  unfold computeBand; split <;> simp
@[simp] theorem computeBand_report (s : State) : (computeBand s).report = s.report := by
  unfold computeBand; split <;> simp
@[simp] theorem computeBand_sig (s : State) : (computeBand s).sig = s.sig := by
  unfold computeBand; split <;> simp
@[simp] theorem computeBand_thermal (s : State) : (computeBand s).thermal = s.thermal := by
  unfold computeBand; split <;> simp
@[simp] theorem computeBand_pending (s : State) : (computeBand s).pending = s.pending := by
  unfold computeBand; split <;> simp

@[simp] theorem startBand_win (s : State) : (startBand s).win = s.win := by
  unfold startBand; dsimp only; split <;> (try split) <;> simp
@[simp] theorem startBand_intake (s : State) : (startBand s).intake = s.intake := by
  unfold startBand; dsimp only; split <;> (try split) <;> simp
@[simp] theorem startBand_slots (s : State) : (startBand s).slots = s.slots := by
  unfold startBand; dsimp only; split <;> (try split) <;> simp
@[simp] theorem startBand_tap (s : State) : (startBand s).tap = s.tap := by
  unfold startBand; dsimp only; split <;> (try split) <;> simp
@[simp] theorem startBand_writer (s : State) : (startBand s).writer = s.writer := by
  unfold startBand; dsimp only; split <;> (try split) <;> simp
@[simp] theorem startBand_report (s : State) : (startBand s).report = s.report := by
  unfold startBand; dsimp only; split <;> (try split) <;> simp
@[simp] theorem startBand_sig (s : State) : (startBand s).sig = s.sig := by
  unfold startBand; dsimp only; split <;> (try split) <;> simp
@[simp] theorem startBand_thermal (s : State) : (startBand s).thermal = s.thermal := by
  unfold startBand; dsimp only; split <;> (try split) <;> simp
@[simp] theorem startBand_pending (s : State) : (startBand s).pending = s.pending := by
  unfold startBand; dsimp only; split <;> (try split) <;> simp

@[simp] theorem State.pick_win (s : State) : (s.pick).win = s.win := by unfold State.pick; split <;> simp
@[simp] theorem State.pick_intake (s : State) : (s.pick).intake = s.intake := by unfold State.pick; split <;> simp
@[simp] theorem State.pick_slots (s : State) : (s.pick).slots = s.slots := by unfold State.pick; split <;> simp
@[simp] theorem State.pick_tap (s : State) : (s.pick).tap = s.tap := by unfold State.pick; split <;> simp
@[simp] theorem State.pick_writer (s : State) : (s.pick).writer = s.writer := by unfold State.pick; split <;> simp
@[simp] theorem State.pick_report (s : State) : (s.pick).report = s.report := by unfold State.pick; split <;> simp
@[simp] theorem State.pick_sig (s : State) : (s.pick).sig = s.sig := by unfold State.pick; split <;> simp
@[simp] theorem State.pick_thermal (s : State) : (s.pick).thermal = s.thermal := by
  unfold State.pick; split <;> simp
@[simp] theorem State.pick_pending (s : State) : (s.pick).pending = s.pending := by
  unfold State.pick; split <;> simp

@[simp] theorem State.park_win (s : State) : (s.park).win = s.win := by simp [State.park]
@[simp] theorem State.park_intake (s : State) : (s.park).intake = s.intake := by simp [State.park]
@[simp] theorem State.park_slots (s : State) : (s.park).slots = s.slots := by simp [State.park]
@[simp] theorem State.park_tap (s : State) : (s.park).tap = s.tap := by simp [State.park]
@[simp] theorem State.park_writer (s : State) : (s.park).writer = s.writer := by simp [State.park]
@[simp] theorem State.park_report (s : State) : (s.park).report = s.report := by simp [State.park]
@[simp] theorem State.park_sig (s : State) : (s.park).sig = s.sig := by simp [State.park]
@[simp] theorem State.park_thermal (s : State) : (s.park).thermal = s.thermal := by simp [State.park]
@[simp] theorem State.park_pending (s : State) : (s.park).pending = s.pending := by simp [State.park]

@[simp] theorem bandDone_win (n : Nat) (s : State) : (bandDone n s).win = s.win := by
  unfold bandDone; repeat' (first | rfl | simp | split)
@[simp] theorem bandDone_intake (n : Nat) (s : State) : (bandDone n s).intake = s.intake := by
  unfold bandDone; repeat' (first | rfl | simp | split)
@[simp] theorem bandDone_slots (n : Nat) (s : State) : (bandDone n s).slots = s.slots := by
  unfold bandDone; repeat' (first | rfl | simp | split)
@[simp] theorem bandDone_tap (n : Nat) (s : State) : (bandDone n s).tap = s.tap := by
  unfold bandDone; repeat' (first | rfl | simp | split)
@[simp] theorem bandDone_report (n : Nat) (s : State) : (bandDone n s).report = s.report := by
  unfold bandDone; repeat' (first | rfl | simp | split)
@[simp] theorem bandDone_sig (n : Nat) (s : State) : (bandDone n s).sig = s.sig := by
  unfold bandDone; repeat' (first | rfl | simp | split)
@[simp] theorem bandDone_thermal (n : Nat) (s : State) : (bandDone n s).thermal = s.thermal := by
  unfold bandDone; repeat' (first | rfl | simp | split)
@[simp] theorem bandDone_pending (n : Nat) (s : State) : (bandDone n s).pending = s.pending := by
  unfold bandDone; repeat' (first | rfl | simp | split)

@[simp] theorem bandFailed_win (s : State) : (bandFailed s).win = s.win := by unfold bandFailed; split <;> simp
@[simp] theorem bandFailed_intake (s : State) : (bandFailed s).intake = s.intake := by
  unfold bandFailed; split <;> simp
@[simp] theorem bandFailed_slots (s : State) : (bandFailed s).slots = s.slots := by
  unfold bandFailed; split <;> simp
@[simp] theorem bandFailed_tap (s : State) : (bandFailed s).tap = s.tap := by unfold bandFailed; split <;> simp
@[simp] theorem bandFailed_work (s : State) : (bandFailed s).work = s.work := by
  unfold bandFailed; split <;> simp
@[simp] theorem bandFailed_report (s : State) : (bandFailed s).report = s.report := by
  unfold bandFailed; split <;> simp
@[simp] theorem bandFailed_thermal (s : State) : (bandFailed s).thermal = s.thermal := by
  unfold bandFailed; split <;> simp
@[simp] theorem bandFailed_free (s : State) : (bandFailed s).free = s.free := by
  unfold bandFailed; split <;> simp
@[simp] theorem bandFailed_pending (s : State) : (bandFailed s).pending = s.pending := by
  unfold bandFailed; split <;> simp

@[simp] theorem rowReturned_win (b : List Byte) (r : Request) (s : State) : (rowReturned b r s).win = s.win := by
  unfold rowReturned State.bandMoves State.proceed; split <;> [split <;> [skip; split]; skip] <;> simp
@[simp] theorem rowReturned_intake (b : List Byte) (r : Request) (s : State)
    : (rowReturned b r s).intake = s.intake := by
  unfold rowReturned State.bandMoves State.proceed; split <;> [split <;> [skip; split]; skip] <;> simp
@[simp] theorem rowReturned_slots (b : List Byte) (r : Request) (s : State)
    : (rowReturned b r s).slots = s.slots := by
  unfold rowReturned State.bandMoves State.proceed; split <;> [split <;> [skip; split]; skip] <;> simp
@[simp] theorem rowReturned_tap (b : List Byte) (r : Request) (s : State) : (rowReturned b r s).tap = s.tap := by
  unfold rowReturned State.bandMoves State.proceed; split <;> [split <;> [skip; split]; skip] <;> simp
@[simp] theorem rowReturned_work (b : List Byte) (r : Request) (s : State) : (rowReturned b r s).work = s.work := by
  unfold rowReturned State.bandMoves State.proceed; split <;> [split <;> [skip; split]; skip] <;> simp
@[simp] theorem rowReturned_writer (b : List Byte) (r : Request) (s : State)
    : (rowReturned b r s).writer = s.writer := by
  unfold rowReturned State.bandMoves State.proceed; split <;> [split <;> [skip; split]; skip] <;> simp
@[simp] theorem rowReturned_report (b : List Byte) (r : Request) (s : State)
    : (rowReturned b r s).report = s.report := by
  unfold rowReturned State.bandMoves State.proceed; split <;> [split <;> [skip; split]; skip] <;> simp
@[simp] theorem rowReturned_sig (b : List Byte) (r : Request) (s : State) : (rowReturned b r s).sig = s.sig := by
  unfold rowReturned State.bandMoves State.proceed; split <;> [split <;> [skip; split]; skip] <;> simp
@[simp] theorem rowReturned_thermal (b : List Byte) (r : Request) (s : State)
    : (rowReturned b r s).thermal = s.thermal := by
  unfold rowReturned State.bandMoves State.proceed; split <;> [split <;> [skip; split]; skip] <;> simp
@[simp] theorem rowReturned_pending (b : List Byte) (r : Request) (s : State)
    : (rowReturned b r s).pending = s.pending := by
  unfold rowReturned State.bandMoves State.proceed; split <;> [split <;> [skip; split]; skip] <;> simp

@[simp] theorem writeAcked_win (r : Request) (s : State) : (writeAcked r s).win = s.win := by
  unfold writeAcked State.bandMoves State.proceed; split <;> [split <;> [skip; split]; skip] <;> simp
@[simp] theorem writeAcked_intake (r : Request) (s : State) : (writeAcked r s).intake = s.intake := by
  unfold writeAcked State.bandMoves State.proceed; split <;> [split <;> [skip; split]; skip] <;> simp
@[simp] theorem writeAcked_slots (r : Request) (s : State) : (writeAcked r s).slots = s.slots := by
  unfold writeAcked State.bandMoves State.proceed; split <;> [split <;> [skip; split]; skip] <;> simp
@[simp] theorem writeAcked_tap (r : Request) (s : State) : (writeAcked r s).tap = s.tap := by
  unfold writeAcked State.bandMoves State.proceed; split <;> [split <;> [skip; split]; skip] <;> simp
@[simp] theorem writeAcked_report (r : Request) (s : State) : (writeAcked r s).report = s.report := by
  unfold writeAcked State.bandMoves State.proceed; split <;> [split <;> [skip; split]; skip] <;> simp
@[simp] theorem writeAcked_sig (r : Request) (s : State) : (writeAcked r s).sig = s.sig := by
  unfold writeAcked State.bandMoves State.proceed; split <;> [split <;> [skip; split]; skip] <;> simp
@[simp] theorem writeAcked_thermal (r : Request) (s : State) : (writeAcked r s).thermal = s.thermal := by
  unfold writeAcked State.bandMoves State.proceed; split <;> [split <;> [skip; split]; skip] <;> simp
@[simp] theorem writeAcked_pending (r : Request) (s : State) : (writeAcked r s).pending = s.pending := by
  unfold writeAcked State.bandMoves State.proceed; split <;> [split <;> [skip; split]; skip] <;> simp

@[simp] theorem drainEnd_win (s : State) : (drainEnd s).win = s.win := by
  unfold drainEnd; split <;> (try split) <;> simp
@[simp] theorem drainEnd_intake (s : State) : (drainEnd s).intake = s.intake := by
  unfold drainEnd; split <;> (try split) <;> simp
@[simp] theorem drainEnd_slots (s : State) : (drainEnd s).slots = s.slots := by
  unfold drainEnd; split <;> (try split) <;> simp
@[simp] theorem drainEnd_tap (s : State) : (drainEnd s).tap = s.tap := by
  unfold drainEnd; split <;> (try split) <;> simp
@[simp] theorem drainEnd_work (s : State) : (drainEnd s).work = s.work := by
  unfold drainEnd; split <;> (try split) <;> simp
@[simp] theorem drainEnd_report (s : State) : (drainEnd s).report = s.report := by
  unfold drainEnd; split <;> (try split) <;> simp
@[simp] theorem drainEnd_port (s : State) : (drainEnd s).port = s.port := by
  unfold drainEnd; split <;> (try split) <;> simp
@[simp] theorem drainEnd_sig (s : State) : (drainEnd s).sig = s.sig := by
  unfold drainEnd; split <;> (try split) <;> simp
@[simp] theorem drainEnd_thermal (s : State) : (drainEnd s).thermal = s.thermal := by
  unfold drainEnd; split <;> (try split) <;> simp
@[simp] theorem drainEnd_free (s : State) : (drainEnd s).free = s.free := by
  unfold drainEnd; split <;> (try split) <;> simp
@[simp] theorem drainEnd_pending (s : State) : (drainEnd s).pending = s.pending := by
  unfold drainEnd; split <;> (try split) <;> simp

@[simp] theorem breakOffHot_win (s : State) : (breakOffHot s).win = s.win := by
  unfold breakOffHot; split <;> simp
@[simp] theorem breakOffHot_intake (s : State) : (breakOffHot s).intake = s.intake := by
  unfold breakOffHot; split <;> simp
@[simp] theorem breakOffHot_slots (s : State) : (breakOffHot s).slots = s.slots := by
  unfold breakOffHot; split <;> simp
@[simp] theorem breakOffHot_tap (s : State) : (breakOffHot s).tap = s.tap := by
  unfold breakOffHot; split <;> simp
@[simp] theorem breakOffHot_work (s : State) : (breakOffHot s).work = s.work := by
  unfold breakOffHot; split <;> simp
@[simp] theorem breakOffHot_report (s : State) : (breakOffHot s).report = s.report := by
  unfold breakOffHot; split <;> simp
@[simp] theorem breakOffHot_sig (s : State) : (breakOffHot s).sig = s.sig := by
  unfold breakOffHot; split <;> simp
@[simp] theorem breakOffHot_thermal (s : State) : (breakOffHot s).thermal = s.thermal := by
  unfold breakOffHot; split <;> simp
@[simp] theorem breakOffHot_free (s : State) : (breakOffHot s).free = s.free := by
  unfold breakOffHot; split <;> simp
@[simp] theorem breakOffHot_pending (s : State) : (breakOffHot s).pending = s.pending := by
  unfold breakOffHot; split <;> simp

@[simp] theorem followShutdown_intake (a b : Bool) (s : State) : (followShutdown a b s).intake = s.intake := by
  unfold followShutdown; split <;> (try split) <;> simp
@[simp] theorem followShutdown_slots (a b : Bool) (s : State) : (followShutdown a b s).slots = s.slots := by
  unfold followShutdown; split <;> (try split) <;> simp
@[simp] theorem followShutdown_tap (a b : Bool) (s : State) : (followShutdown a b s).tap = s.tap := by
  unfold followShutdown; split <;> (try split) <;> simp
@[simp] theorem followShutdown_report (a b : Bool) (s : State) : (followShutdown a b s).report = s.report := by
  unfold followShutdown; split <;> (try split) <;> simp
@[simp] theorem followShutdown_sig (a b : Bool) (s : State) : (followShutdown a b s).sig = s.sig := by
  unfold followShutdown; split <;> (try split) <;> simp
@[simp] theorem followShutdown_thermal (a b : Bool) (s : State) : (followShutdown a b s).thermal = s.thermal := by
  unfold followShutdown; split <;> (try split) <;> simp
@[simp] theorem followShutdown_pending (a b : Bool) (s : State) : (followShutdown a b s).pending = s.pending := by
  unfold followShutdown; split <;> (try split) <;> simp

@[simp] theorem judgeShutdown_intake (s : State) : (judgeShutdown s).intake = s.intake := by simp [judgeShutdown]
@[simp] theorem judgeShutdown_slots (s : State) : (judgeShutdown s).slots = s.slots := by simp [judgeShutdown]
@[simp] theorem judgeShutdown_tap (s : State) : (judgeShutdown s).tap = s.tap := by simp [judgeShutdown]
@[simp] theorem judgeShutdown_report (s : State) : (judgeShutdown s).report = s.report := by simp [judgeShutdown]
@[simp] theorem judgeShutdown_pending (s : State) : (judgeShutdown s).pending = s.pending := by simp [judgeShutdown]

@[simp] theorem thermalSample_intake (t : Int) (s : State) : (thermalSample t s).intake = s.intake := by
  simp [thermalSample]
@[simp] theorem thermalSample_slots (t : Int) (s : State) : (thermalSample t s).slots = s.slots := by
  simp [thermalSample]
@[simp] theorem thermalSample_tap (t : Int) (s : State) : (thermalSample t s).tap = s.tap := by
  simp [thermalSample]
@[simp] theorem thermalSample_report (t : Int) (s : State) : (thermalSample t s).report = s.report := by
  simp [thermalSample]
@[simp] theorem thermalSample_pending (t : Int) (s : State) : (thermalSample t s).pending = s.pending := by
  simp [thermalSample]

@[simp] theorem acceptCancel_intake (s : State) : (acceptCancel s).intake = s.intake := by simp [acceptCancel]
@[simp] theorem acceptCancel_slots (s : State) : (acceptCancel s).slots = s.slots := by simp [acceptCancel]
@[simp] theorem acceptCancel_tap (s : State) : (acceptCancel s).tap = s.tap := by simp [acceptCancel]
@[simp] theorem acceptCancel_work (s : State) : (acceptCancel s).work = s.work := by simp [acceptCancel]
@[simp] theorem acceptCancel_engine (s : State) : (acceptCancel s).engine = s.engine := by simp [acceptCancel]
@[simp] theorem acceptCancel_port (s : State) : (acceptCancel s).port = s.port := by simp [acceptCancel]
@[simp] theorem acceptCancel_sig (s : State) : (acceptCancel s).sig = s.sig := by simp [acceptCancel]
@[simp] theorem acceptCancel_thermal (s : State) : (acceptCancel s).thermal = s.thermal := by simp [acceptCancel]
@[simp] theorem acceptCancel_free (s : State) : (acceptCancel s).free = s.free := by simp [acceptCancel]
@[simp] theorem acceptCancel_pending (s : State) : (acceptCancel s).pending = s.pending := by simp [acceptCancel]

@[simp] theorem cancelRequest_intake (s : State) : (cancelRequest s).intake = s.intake := by
  unfold cancelRequest; split <;> (try split) <;> simp
@[simp] theorem cancelRequest_slots (s : State) : (cancelRequest s).slots = s.slots := by
  unfold cancelRequest; split <;> (try split) <;> simp
@[simp] theorem cancelRequest_tap (s : State) : (cancelRequest s).tap = s.tap := by
  unfold cancelRequest; split <;> (try split) <;> simp
@[simp] theorem cancelRequest_work (s : State) : (cancelRequest s).work = s.work := by
  unfold cancelRequest; split <;> (try split) <;> simp
@[simp] theorem cancelRequest_engine (s : State) : (cancelRequest s).engine = s.engine := by
  unfold cancelRequest; split <;> (try split) <;> simp
@[simp] theorem cancelRequest_port (s : State) : (cancelRequest s).port = s.port := by
  unfold cancelRequest; split <;> (try split) <;> simp
@[simp] theorem cancelRequest_thermal (s : State) : (cancelRequest s).thermal = s.thermal := by
  unfold cancelRequest; split <;> (try split) <;> simp
@[simp] theorem cancelRequest_free (s : State) : (cancelRequest s).free = s.free := by
  unfold cancelRequest; split <;> (try split) <;> simp
@[simp] theorem cancelRequest_pending (s : State) : (cancelRequest s).pending = s.pending := by
  unfold cancelRequest; split <;> (try split) <;> simp

@[simp] theorem acceptPost_intake (n : Count) (s : State) : (acceptPost n s).intake = s.intake := by
  simp [acceptPost]
@[simp] theorem acceptPost_slots (n : Count) (s : State) : (acceptPost n s).slots = s.slots := by
  simp [acceptPost]
@[simp] theorem acceptPost_tap (n : Count) (s : State) : (acceptPost n s).tap = s.tap := by simp [acceptPost]
@[simp] theorem acceptPost_work (n : Count) (s : State) : (acceptPost n s).work = s.work := by simp [acceptPost]
@[simp] theorem acceptPost_engine (n : Count) (s : State) : (acceptPost n s).engine = s.engine := by
  simp [acceptPost]
@[simp] theorem acceptPost_writer (n : Count) (s : State) : (acceptPost n s).writer = s.writer := by
  simp [acceptPost]
@[simp] theorem acceptPost_port (n : Count) (s : State) : (acceptPost n s).port = s.port := by simp [acceptPost]
@[simp] theorem acceptPost_thermal (n : Count) (s : State) : (acceptPost n s).thermal = s.thermal := by
  simp [acceptPost]
@[simp] theorem acceptPost_free (n : Count) (s : State) : (acceptPost n s).free = s.free := by simp [acceptPost]
@[simp] theorem acceptPost_pending (n : Count) (s : State) : (acceptPost n s).pending = s.pending := by
  simp [acceptPost]

@[simp] theorem resolve_win (q : Count) (f : FrameFields) (s : State) : (resolve q f s).win = s.win := by
  unfold resolve; split <;> (try split) <;> simp
@[simp] theorem resolve_slots (q : Count) (f : FrameFields) (s : State) : (resolve q f s).slots = s.slots := by
  unfold resolve; split <;> (try split) <;> simp
@[simp] theorem resolve_tap (q : Count) (f : FrameFields) (s : State) : (resolve q f s).tap = s.tap := by
  unfold resolve; split <;> (try split) <;> simp
@[simp] theorem resolve_engine (q : Count) (f : FrameFields) (s : State) : (resolve q f s).engine = s.engine := by
  unfold resolve; split <;> (try split) <;> simp
@[simp] theorem resolve_report (q : Count) (f : FrameFields) (s : State) : (resolve q f s).report = s.report := by
  unfold resolve; split <;> (try split) <;> simp
@[simp] theorem resolve_port (q : Count) (f : FrameFields) (s : State) : (resolve q f s).port = s.port := by
  unfold resolve; split <;> (try split) <;> simp
@[simp] theorem resolve_sig (q : Count) (f : FrameFields) (s : State) : (resolve q f s).sig = s.sig := by
  unfold resolve; split <;> (try split) <;> simp
@[simp] theorem resolve_thermal (q : Count) (f : FrameFields) (s : State) : (resolve q f s).thermal = s.thermal := by
  unfold resolve; split <;> (try split) <;> simp
@[simp] theorem resolve_pending (q : Count) (f : FrameFields) (s : State) : (resolve q f s).pending = s.pending := by
  unfold resolve; split <;> (try split) <;> simp

@[simp] theorem frameReturned_win (f : FrameFields) (q : Count) (s : State) : (frameReturned f q s).win = s.win := by
  unfold frameReturned; split <;> (try split) <;> simp
@[simp] theorem frameReturned_slots (f : FrameFields) (q : Count) (s : State)
    : (frameReturned f q s).slots = s.slots := by
  unfold frameReturned; split <;> (try split) <;> simp
@[simp] theorem frameReturned_tap (f : FrameFields) (q : Count) (s : State) : (frameReturned f q s).tap = s.tap := by
  unfold frameReturned; split <;> (try split) <;> simp
@[simp] theorem frameReturned_engine (f : FrameFields) (q : Count) (s : State)
    : (frameReturned f q s).engine = s.engine := by
  unfold frameReturned; split <;> (try split) <;> simp
@[simp] theorem frameReturned_report (f : FrameFields) (q : Count) (s : State)
    : (frameReturned f q s).report = s.report := by
  unfold frameReturned; split <;> (try split) <;> simp
@[simp] theorem frameReturned_port (f : FrameFields) (q : Count) (s : State)
    : (frameReturned f q s).port = s.port := by
  unfold frameReturned; split <;> (try split) <;> simp
@[simp] theorem frameReturned_sig (f : FrameFields) (q : Count) (s : State) : (frameReturned f q s).sig = s.sig := by
  unfold frameReturned; split <;> (try split) <;> simp
@[simp] theorem frameReturned_thermal (f : FrameFields) (q : Count) (s : State)
    : (frameReturned f q s).thermal = s.thermal := by
  unfold frameReturned; split <;> (try split) <;> simp
@[simp] theorem frameReturned_pending (f : FrameFields) (q : Count) (s : State)
    : (frameReturned f q s).pending = s.pending := by
  unfold frameReturned; split <;> (try split) <;> simp

@[simp] theorem resolvePlaced_win (s : State) : (resolvePlaced s).win = s.win := by
  unfold resolvePlaced; split <;> (try split) <;> simp
@[simp] theorem resolvePlaced_slots (s : State) : (resolvePlaced s).slots = s.slots := by
  unfold resolvePlaced; split <;> (try split) <;> simp
@[simp] theorem resolvePlaced_tap (s : State) : (resolvePlaced s).tap = s.tap := by
  unfold resolvePlaced; split <;> (try split) <;> simp
@[simp] theorem resolvePlaced_engine (s : State) : (resolvePlaced s).engine = s.engine := by
  unfold resolvePlaced; split <;> (try split) <;> simp
@[simp] theorem resolvePlaced_report (s : State) : (resolvePlaced s).report = s.report := by
  unfold resolvePlaced; split <;> (try split) <;> simp
@[simp] theorem resolvePlaced_port (s : State) : (resolvePlaced s).port = s.port := by
  unfold resolvePlaced; split <;> (try split) <;> simp
@[simp] theorem resolvePlaced_sig (s : State) : (resolvePlaced s).sig = s.sig := by
  unfold resolvePlaced; split <;> (try split) <;> simp
@[simp] theorem resolvePlaced_thermal (s : State) : (resolvePlaced s).thermal = s.thermal := by
  unfold resolvePlaced; split <;> (try split) <;> simp
@[simp] theorem resolvePlaced_pending (s : State) : (resolvePlaced s).pending = s.pending := by
  unfold resolvePlaced; split <;> (try split) <;> simp

@[simp] theorem State.readMore_win (s : State) : (s.readMore).win = s.win := by
  unfold State.readMore; split <;> rfl
@[simp] theorem State.readMore_taken (s : State) : (s.readMore).intake.taken = s.intake.taken := by
  unfold State.readMore; split <;> rfl
@[simp] theorem State.readMore_retired (s : State) : (s.readMore).intake.retired = s.intake.retired := by
  unfold State.readMore; split <;> rfl
@[simp] theorem State.readMore_map (s : State) : (s.readMore).intake.map = s.intake.map := by
  unfold State.readMore; split <;> rfl
@[simp] theorem State.readMore_install (s : State) : (s.readMore).intake.install = s.intake.install := by
  unfold State.readMore; split <;> rfl
@[simp] theorem State.readMore_slots (s : State) : (s.readMore).slots = s.slots := by
  unfold State.readMore; split <;> rfl
@[simp] theorem State.readMore_tap (s : State) : (s.readMore).tap = s.tap := by
  unfold State.readMore; split <;> rfl
@[simp] theorem State.readMore_work (s : State) : (s.readMore).work = s.work := by
  unfold State.readMore; split <;> rfl
@[simp] theorem State.readMore_engine (s : State) : (s.readMore).engine = s.engine := by
  unfold State.readMore; split <;> rfl
@[simp] theorem State.readMore_writer (s : State) : (s.readMore).writer = s.writer := by
  unfold State.readMore; split <;> rfl
@[simp] theorem State.readMore_report (s : State) : (s.readMore).report = s.report := by
  unfold State.readMore; split <;> rfl
@[simp] theorem State.readMore_sig (s : State) : (s.readMore).sig = s.sig := by
  unfold State.readMore; split <;> rfl
@[simp] theorem State.readMore_thermal (s : State) : (s.readMore).thermal = s.thermal := by
  unfold State.readMore; split <;> rfl
@[simp] theorem State.readMore_pending (s : State) : (s.readMore).pending = s.pending := by
  unfold State.readMore; split <;> rfl

@[simp] theorem installReturned_win (b : List Byte) (q : Count) (s : State)
    : (installReturned b q s).win = s.win := by
  unfold installReturned; dsimp only; split <;> simp
@[simp] theorem installReturned_tap (b : List Byte) (q : Count) (s : State)
    : (installReturned b q s).tap = s.tap := by
  unfold installReturned; dsimp only; split <;> simp
@[simp] theorem installReturned_work (b : List Byte) (q : Count) (s : State)
    : (installReturned b q s).work = s.work := by
  unfold installReturned; dsimp only; split <;> simp
@[simp] theorem installReturned_engine (b : List Byte) (q : Count) (s : State)
    : (installReturned b q s).engine = s.engine := by
  unfold installReturned; dsimp only; split <;> simp
@[simp] theorem installReturned_report (b : List Byte) (q : Count) (s : State)
    : (installReturned b q s).report = s.report := by
  unfold installReturned; dsimp only; split <;> simp
@[simp] theorem installReturned_sig (b : List Byte) (q : Count) (s : State)
    : (installReturned b q s).sig = s.sig := by
  unfold installReturned; dsimp only; split <;> simp
@[simp] theorem installReturned_thermal (b : List Byte) (q : Count) (s : State)
    : (installReturned b q s).thermal = s.thermal := by
  unfold installReturned; dsimp only; split <;> simp
@[simp] theorem installReturned_pending (b : List Byte) (q : Count) (s : State)
    : (installReturned b q s).pending = s.pending := by
  unfold installReturned; dsimp only; split <;> simp

@[simp] theorem validateInstall_win (b : List Byte) (q : Count) (i : Nat) (s : State)
    : (validateInstall b q i s).win = s.win := by
  unfold validateInstall; split <;> rfl
@[simp] theorem validateInstall_tap (b : List Byte) (q : Count) (i : Nat) (s : State)
    : (validateInstall b q i s).tap = s.tap := by
  unfold validateInstall; split <;> rfl
@[simp] theorem validateInstall_work (b : List Byte) (q : Count) (i : Nat) (s : State)
    : (validateInstall b q i s).work = s.work := by
  unfold validateInstall; split <;> rfl
@[simp] theorem validateInstall_engine (b : List Byte) (q : Count) (i : Nat) (s : State)
    : (validateInstall b q i s).engine = s.engine := by
  unfold validateInstall; split <;> rfl
@[simp] theorem validateInstall_report (b : List Byte) (q : Count) (i : Nat) (s : State)
    : (validateInstall b q i s).report = s.report := by
  unfold validateInstall; split <;> rfl
@[simp] theorem validateInstall_port (b : List Byte) (q : Count) (i : Nat) (s : State)
    : (validateInstall b q i s).port = s.port := by
  unfold validateInstall; split <;> rfl
@[simp] theorem validateInstall_sig (b : List Byte) (q : Count) (i : Nat) (s : State)
    : (validateInstall b q i s).sig = s.sig := by
  unfold validateInstall; split <;> rfl
@[simp] theorem validateInstall_thermal (b : List Byte) (q : Count) (i : Nat) (s : State)
    : (validateInstall b q i s).thermal = s.thermal := by
  unfold validateInstall; split <;> rfl
@[simp] theorem validateInstall_free (b : List Byte) (q : Count) (i : Nat) (s : State)
    : (validateInstall b q i s).free = s.free := by
  unfold validateInstall; split <;> rfl
@[simp] theorem validateInstall_pending (b : List Byte) (q : Count) (i : Nat) (s : State)
    : (validateInstall b q i s).pending = s.pending := by
  unfold validateInstall; split <;> rfl

@[simp] theorem imageReturned_win (b : List Byte) (r : Request) (s : State) : (imageReturned b r s).win = s.win := by
  unfold imageReturned State.proceed; split <;> dsimp only; split <;> [skip; split] <;> simp
@[simp] theorem imageReturned_tap (b : List Byte) (r : Request) (s : State) : (imageReturned b r s).tap = s.tap := by
  unfold imageReturned State.proceed; split <;> dsimp only; split <;> [skip; split] <;> simp
@[simp] theorem imageReturned_work (b : List Byte) (r : Request) (s : State) : (imageReturned b r s).work = s.work := by
  unfold imageReturned State.proceed; split <;> dsimp only; split <;> [skip; split] <;> simp
@[simp] theorem imageReturned_engine (b : List Byte) (r : Request) (s : State)
    : (imageReturned b r s).engine = s.engine := by
  unfold imageReturned State.proceed; split <;> dsimp only; split <;> [skip; split] <;> simp
@[simp] theorem imageReturned_report (b : List Byte) (r : Request) (s : State)
    : (imageReturned b r s).report = s.report := by
  unfold imageReturned State.proceed; split <;> dsimp only; split <;> [skip; split] <;> simp
@[simp] theorem imageReturned_sig (b : List Byte) (r : Request) (s : State) : (imageReturned b r s).sig = s.sig := by
  unfold imageReturned State.proceed; split <;> dsimp only; split <;> [skip; split] <;> simp
@[simp] theorem imageReturned_thermal (b : List Byte) (r : Request) (s : State)
    : (imageReturned b r s).thermal = s.thermal := by
  unfold imageReturned State.proceed; split <;> dsimp only; split <;> [skip; split] <;> simp
@[simp] theorem imageReturned_pending (b : List Byte) (r : Request) (s : State)
    : (imageReturned b r s).pending = s.pending := by
  unfold imageReturned State.proceed; split <;> dsimp only; split <;> [skip; split] <;> simp

@[simp] theorem imageFault_win (s : State) : (imageFault s).win = s.win := by
  unfold imageFault withInstall; split <;> rfl
@[simp] theorem imageFault_tap (s : State) : (imageFault s).tap = s.tap := by
  unfold imageFault withInstall; split <;> rfl
@[simp] theorem imageFault_work (s : State) : (imageFault s).work = s.work := by
  unfold imageFault withInstall; split <;> rfl
@[simp] theorem imageFault_engine (s : State) : (imageFault s).engine = s.engine := by
  unfold imageFault withInstall; split <;> rfl
@[simp] theorem imageFault_report (s : State) : (imageFault s).report = s.report := by
  unfold imageFault withInstall; split <;> rfl
@[simp] theorem imageFault_thermal (s : State) : (imageFault s).thermal = s.thermal := by
  unfold imageFault withInstall; split <;> rfl
@[simp] theorem imageFault_free (s : State) : (imageFault s).free = s.free := by
  unfold imageFault withInstall; split <;> rfl
@[simp] theorem imageFault_pending (s : State) : (imageFault s).pending = s.pending := by
  unfold imageFault withInstall; split <;> rfl

@[simp] theorem dropReturned_win (b : List Byte) (q : Count) (s : State) : (dropReturned b q s).win = s.win := by
  unfold dropReturned; split <;> rfl
@[simp] theorem dropReturned_tap (b : List Byte) (q : Count) (s : State) : (dropReturned b q s).tap = s.tap := by
  unfold dropReturned; split <;> rfl
@[simp] theorem dropReturned_work (b : List Byte) (q : Count) (s : State) : (dropReturned b q s).work = s.work := by
  unfold dropReturned; split <;> rfl
@[simp] theorem dropReturned_engine (b : List Byte) (q : Count) (s : State)
    : (dropReturned b q s).engine = s.engine := by
  unfold dropReturned; split <;> rfl
@[simp] theorem dropReturned_report (b : List Byte) (q : Count) (s : State)
    : (dropReturned b q s).report = s.report := by
  unfold dropReturned; split <;> rfl
@[simp] theorem dropReturned_port (b : List Byte) (q : Count) (s : State) : (dropReturned b q s).port = s.port := by
  unfold dropReturned; split <;> rfl
@[simp] theorem dropReturned_sig (b : List Byte) (q : Count) (s : State) : (dropReturned b q s).sig = s.sig := by
  unfold dropReturned; split <;> rfl
@[simp] theorem dropReturned_thermal (b : List Byte) (q : Count) (s : State)
    : (dropReturned b q s).thermal = s.thermal := by
  unfold dropReturned; split <;> rfl
@[simp] theorem dropReturned_free (b : List Byte) (q : Count) (s : State) : (dropReturned b q s).free = s.free := by
  unfold dropReturned; split <;> rfl
@[simp] theorem dropReturned_pending (b : List Byte) (q : Count) (s : State)
    : (dropReturned b q s).pending = s.pending := by
  unfold dropReturned; split <;> rfl

@[simp] theorem trimApplied_win (b : List Byte) (t : Trims) (q : Count) (p : Profile) (s : State)
    : (trimApplied b t q p s).win = s.win := by
  simp [trimApplied]
@[simp] theorem trimApplied_tap (b : List Byte) (t : Trims) (q : Count) (p : Profile) (s : State)
    : (trimApplied b t q p s).tap = s.tap := by
  simp [trimApplied]
@[simp] theorem trimApplied_work (b : List Byte) (t : Trims) (q : Count) (p : Profile) (s : State)
    : (trimApplied b t q p s).work = s.work := by
  simp [trimApplied]
@[simp] theorem trimApplied_engine (b : List Byte) (t : Trims) (q : Count) (p : Profile) (s : State)
    : (trimApplied b t q p s).engine = s.engine := by
  simp [trimApplied]
@[simp] theorem trimApplied_report (b : List Byte) (t : Trims) (q : Count) (p : Profile) (s : State)
    : (trimApplied b t q p s).report = s.report := by
  simp [trimApplied]
@[simp] theorem trimApplied_port (b : List Byte) (t : Trims) (q : Count) (p : Profile) (s : State)
    : (trimApplied b t q p s).port = s.port := by
  simp [trimApplied]
@[simp] theorem trimApplied_sig (b : List Byte) (t : Trims) (q : Count) (p : Profile) (s : State)
    : (trimApplied b t q p s).sig = s.sig := by
  simp [trimApplied]
@[simp] theorem trimApplied_thermal (b : List Byte) (t : Trims) (q : Count) (p : Profile) (s : State)
    : (trimApplied b t q p s).thermal = s.thermal := by
  simp [trimApplied]
@[simp] theorem trimApplied_free (b : List Byte) (t : Trims) (q : Count) (p : Profile) (s : State)
    : (trimApplied b t q p s).free = s.free := by
  simp [trimApplied]
@[simp] theorem trimApplied_pending (b : List Byte) (t : Trims) (q : Count) (p : Profile) (s : State)
    : (trimApplied b t q p s).pending = s.pending := by
  simp [trimApplied]

@[simp] theorem nudgeReturned_win (b : List Byte) (q : Count) (s : State) : (nudgeReturned b q s).win = s.win := by
  unfold nudgeReturned trimReturned; split <;> [skip; split] <;> rfl
@[simp] theorem nudgeReturned_tap (b : List Byte) (q : Count) (s : State) : (nudgeReturned b q s).tap = s.tap := by
  unfold nudgeReturned trimReturned; split <;> [skip; split] <;> rfl
@[simp] theorem nudgeReturned_work (b : List Byte) (q : Count) (s : State) : (nudgeReturned b q s).work = s.work := by
  unfold nudgeReturned trimReturned; split <;> [skip; split] <;> rfl
@[simp] theorem nudgeReturned_engine (b : List Byte) (q : Count) (s : State)
    : (nudgeReturned b q s).engine = s.engine := by
  unfold nudgeReturned trimReturned; split <;> [skip; split] <;> rfl
@[simp] theorem nudgeReturned_report (b : List Byte) (q : Count) (s : State)
    : (nudgeReturned b q s).report = s.report := by
  unfold nudgeReturned trimReturned; split <;> [skip; split] <;> rfl
@[simp] theorem nudgeReturned_port (b : List Byte) (q : Count) (s : State) : (nudgeReturned b q s).port = s.port := by
  unfold nudgeReturned trimReturned; split <;> [skip; split] <;> rfl
@[simp] theorem nudgeReturned_sig (b : List Byte) (q : Count) (s : State) : (nudgeReturned b q s).sig = s.sig := by
  unfold nudgeReturned trimReturned; split <;> [skip; split] <;> rfl
@[simp] theorem nudgeReturned_thermal (b : List Byte) (q : Count) (s : State)
    : (nudgeReturned b q s).thermal = s.thermal := by
  unfold nudgeReturned trimReturned; split <;> [skip; split] <;> rfl
@[simp] theorem nudgeReturned_free (b : List Byte) (q : Count) (s : State) : (nudgeReturned b q s).free = s.free := by
  unfold nudgeReturned trimReturned; split <;> [skip; split] <;> rfl
@[simp] theorem nudgeReturned_pending (b : List Byte) (q : Count) (s : State)
    : (nudgeReturned b q s).pending = s.pending := by
  unfold nudgeReturned trimReturned; split <;> [skip; split] <;> rfl

@[simp] theorem setReturned_win (b : List Byte) (q : Count) (s : State) : (setReturned b q s).win = s.win := by
  unfold setReturned trimReturned; split <;> rfl
@[simp] theorem setReturned_tap (b : List Byte) (q : Count) (s : State) : (setReturned b q s).tap = s.tap := by
  unfold setReturned trimReturned; split <;> rfl
@[simp] theorem setReturned_work (b : List Byte) (q : Count) (s : State) : (setReturned b q s).work = s.work := by
  unfold setReturned trimReturned; split <;> rfl
@[simp] theorem setReturned_engine (b : List Byte) (q : Count) (s : State)
    : (setReturned b q s).engine = s.engine := by
  unfold setReturned trimReturned; split <;> rfl
@[simp] theorem setReturned_report (b : List Byte) (q : Count) (s : State)
    : (setReturned b q s).report = s.report := by
  unfold setReturned trimReturned; split <;> rfl
@[simp] theorem setReturned_port (b : List Byte) (q : Count) (s : State) : (setReturned b q s).port = s.port := by
  unfold setReturned trimReturned; split <;> rfl
@[simp] theorem setReturned_sig (b : List Byte) (q : Count) (s : State) : (setReturned b q s).sig = s.sig := by
  unfold setReturned trimReturned; split <;> rfl
@[simp] theorem setReturned_thermal (b : List Byte) (q : Count) (s : State)
    : (setReturned b q s).thermal = s.thermal := by
  unfold setReturned trimReturned; split <;> rfl
@[simp] theorem setReturned_free (b : List Byte) (q : Count) (s : State) : (setReturned b q s).free = s.free := by
  unfold setReturned trimReturned; split <;> rfl
@[simp] theorem setReturned_pending (b : List Byte) (q : Count) (s : State)
    : (setReturned b q s).pending = s.pending := by
  unfold setReturned trimReturned; split <;> rfl

@[simp] theorem badModeReturned_win (b : List Byte) (q : Count) (s : State)
    : (badModeReturned b q s).win = s.win := by
  unfold badModeReturned trimReturned; split <;> rfl
@[simp] theorem badModeReturned_slots (b : List Byte) (q : Count) (s : State)
    : (badModeReturned b q s).slots = s.slots := by
  unfold badModeReturned trimReturned; split <;> rfl
@[simp] theorem badModeReturned_tap (b : List Byte) (q : Count) (s : State)
    : (badModeReturned b q s).tap = s.tap := by
  unfold badModeReturned trimReturned; split <;> rfl
@[simp] theorem badModeReturned_work (b : List Byte) (q : Count) (s : State)
    : (badModeReturned b q s).work = s.work := by
  unfold badModeReturned trimReturned; split <;> rfl
@[simp] theorem badModeReturned_engine (b : List Byte) (q : Count) (s : State)
    : (badModeReturned b q s).engine = s.engine := by
  unfold badModeReturned trimReturned; split <;> rfl
@[simp] theorem badModeReturned_report (b : List Byte) (q : Count) (s : State)
    : (badModeReturned b q s).report = s.report := by
  unfold badModeReturned trimReturned; split <;> rfl
@[simp] theorem badModeReturned_port (b : List Byte) (q : Count) (s : State)
    : (badModeReturned b q s).port = s.port := by
  unfold badModeReturned trimReturned; split <;> rfl
@[simp] theorem badModeReturned_sig (b : List Byte) (q : Count) (s : State)
    : (badModeReturned b q s).sig = s.sig := by
  unfold badModeReturned trimReturned; split <;> rfl
@[simp] theorem badModeReturned_thermal (b : List Byte) (q : Count) (s : State)
    : (badModeReturned b q s).thermal = s.thermal := by
  unfold badModeReturned trimReturned; split <;> rfl
@[simp] theorem badModeReturned_free (b : List Byte) (q : Count) (s : State)
    : (badModeReturned b q s).free = s.free := by
  unfold badModeReturned trimReturned; split <;> rfl
@[simp] theorem badModeReturned_pending (b : List Byte) (q : Count) (s : State)
    : (badModeReturned b q s).pending = s.pending := by
  unfold badModeReturned trimReturned; split <;> rfl

@[simp] theorem optionsReturned_win (b : List Byte) (q : Count) (s : State)
    : (optionsReturned b q s).win = s.win := by
  unfold optionsReturned; split <;> rfl
@[simp] theorem optionsReturned_slots (b : List Byte) (q : Count) (s : State)
    : (optionsReturned b q s).slots = s.slots := by
  unfold optionsReturned; split <;> rfl
@[simp] theorem optionsReturned_tap (b : List Byte) (q : Count) (s : State)
    : (optionsReturned b q s).tap = s.tap := by
  unfold optionsReturned; split <;> rfl
@[simp] theorem optionsReturned_work (b : List Byte) (q : Count) (s : State)
    : (optionsReturned b q s).work = s.work := by
  unfold optionsReturned; split <;> rfl
@[simp] theorem optionsReturned_engine (b : List Byte) (q : Count) (s : State)
    : (optionsReturned b q s).engine = s.engine := by
  unfold optionsReturned; split <;> rfl
@[simp] theorem optionsReturned_report (b : List Byte) (q : Count) (s : State)
    : (optionsReturned b q s).report = s.report := by
  unfold optionsReturned; split <;> rfl
@[simp] theorem optionsReturned_port (b : List Byte) (q : Count) (s : State)
    : (optionsReturned b q s).port = s.port := by
  unfold optionsReturned; split <;> rfl
@[simp] theorem optionsReturned_thermal (b : List Byte) (q : Count) (s : State)
    : (optionsReturned b q s).thermal = s.thermal := by
  unfold optionsReturned; split <;> rfl
@[simp] theorem optionsReturned_free (b : List Byte) (q : Count) (s : State)
    : (optionsReturned b q s).free = s.free := by
  unfold optionsReturned; split <;> rfl
@[simp] theorem optionsReturned_pending (b : List Byte) (q : Count) (s : State)
    : (optionsReturned b q s).pending = s.pending := by
  unfold optionsReturned; split <;> rfl

@[simp] theorem takeUpAnswer_win (s : State) : (takeUpAnswer s).win = s.win := by
  unfold takeUpAnswer; split <;> (try split) <;> simp
@[simp] theorem takeUpAnswer_intake (s : State) : (takeUpAnswer s).intake = s.intake := by
  unfold takeUpAnswer; split <;> (try split) <;> simp
@[simp] theorem takeUpAnswer_slots (s : State) : (takeUpAnswer s).slots = s.slots := by
  unfold takeUpAnswer; split <;> (try split) <;> simp
@[simp] theorem takeUpAnswer_tap (s : State) : (takeUpAnswer s).tap = s.tap := by
  unfold takeUpAnswer; split <;> (try split) <;> simp
@[simp] theorem takeUpAnswer_work (s : State) : (takeUpAnswer s).work = s.work := by
  unfold takeUpAnswer; split <;> (try split) <;> simp
@[simp] theorem takeUpAnswer_engine (s : State) : (takeUpAnswer s).engine = s.engine := by
  unfold takeUpAnswer; split <;> (try split) <;> simp
@[simp] theorem takeUpAnswer_report (s : State) : (takeUpAnswer s).report = s.report := by
  unfold takeUpAnswer; split <;> (try split) <;> simp
@[simp] theorem takeUpAnswer_sig (s : State) : (takeUpAnswer s).sig = s.sig := by
  unfold takeUpAnswer; split <;> (try split) <;> simp
@[simp] theorem takeUpAnswer_thermal (s : State) : (takeUpAnswer s).thermal = s.thermal := by
  unfold takeUpAnswer; split <;> (try split) <;> simp
@[simp] theorem takeUpAnswer_free (s : State) : (takeUpAnswer s).free = s.free := by
  unfold takeUpAnswer; split <;> (try split) <;> simp
@[simp] theorem takeUpAnswer_pending (s : State) : (takeUpAnswer s).pending = s.pending := by
  unfold takeUpAnswer; split <;> (try split) <;> simp

@[simp] theorem answerWriteAcked_win (r : Request) (s : State) : (answerWriteAcked r s).win = s.win := by
  unfold answerWriteAcked withInHand; split <;> [split; skip] <;> [split; skip; skip] <;> rfl
@[simp] theorem answerWriteAcked_slots (r : Request) (s : State) : (answerWriteAcked r s).slots = s.slots := by
  unfold answerWriteAcked withInHand; split <;> [split; skip] <;> [split; skip; skip] <;> rfl
@[simp] theorem answerWriteAcked_tap (r : Request) (s : State) : (answerWriteAcked r s).tap = s.tap := by
  unfold answerWriteAcked withInHand; split <;> [split; skip] <;> [split; skip; skip] <;> rfl
@[simp] theorem answerWriteAcked_sig (r : Request) (s : State) : (answerWriteAcked r s).sig = s.sig := by
  unfold answerWriteAcked withInHand; split <;> [split; skip] <;> [split; skip; skip] <;> rfl
@[simp] theorem answerWriteAcked_thermal (r : Request) (s : State) : (answerWriteAcked r s).thermal = s.thermal := by
  unfold answerWriteAcked withInHand; split <;> [split; skip] <;> [split; skip; skip] <;> rfl
@[simp] theorem answerWriteAcked_free (r : Request) (s : State) : (answerWriteAcked r s).free = s.free := by
  unfold answerWriteAcked withInHand; split <;> [split; skip] <;> [split; skip; skip] <;> rfl
@[simp] theorem answerWriteAcked_pending (r : Request) (s : State) : (answerWriteAcked r s).pending = s.pending := by
  unfold answerWriteAcked withInHand; split <;> [split; skip] <;> [split; skip; skip] <;> rfl

@[simp] theorem reportWriteAcked_intake (r : Request) (s : State) : (reportWriteAcked r s).intake = s.intake := by
  unfold reportWriteAcked; split <;> rfl
@[simp] theorem reportWriteAcked_slots (r : Request) (s : State) : (reportWriteAcked r s).slots = s.slots := by
  unfold reportWriteAcked; split <;> rfl
@[simp] theorem reportWriteAcked_tap (r : Request) (s : State) : (reportWriteAcked r s).tap = s.tap := by
  unfold reportWriteAcked; split <;> rfl
@[simp] theorem reportWriteAcked_work (r : Request) (s : State) : (reportWriteAcked r s).work = s.work := by
  unfold reportWriteAcked; split <;> rfl
@[simp] theorem reportWriteAcked_engine (r : Request) (s : State) : (reportWriteAcked r s).engine = s.engine := by
  unfold reportWriteAcked; split <;> rfl
@[simp] theorem reportWriteAcked_port (r : Request) (s : State) : (reportWriteAcked r s).port = s.port := by
  unfold reportWriteAcked; split <;> rfl
@[simp] theorem reportWriteAcked_sig (r : Request) (s : State) : (reportWriteAcked r s).sig = s.sig := by
  unfold reportWriteAcked; split <;> rfl
@[simp] theorem reportWriteAcked_thermal (r : Request) (s : State) : (reportWriteAcked r s).thermal = s.thermal := by
  unfold reportWriteAcked; split <;> rfl
@[simp] theorem reportWriteAcked_free (r : Request) (s : State) : (reportWriteAcked r s).free = s.free := by
  unfold reportWriteAcked; split <;> rfl
@[simp] theorem reportWriteAcked_pending (r : Request) (s : State) : (reportWriteAcked r s).pending = s.pending := by
  unfold reportWriteAcked; split <;> rfl

@[simp] theorem signalAnswer_slots (h : InHand) (s : State) : (signalAnswer h s).slots = s.slots := by
  simp [signalAnswer]
@[simp] theorem signalAnswer_tap (h : InHand) (s : State) : (signalAnswer h s).tap = s.tap := by
  simp [signalAnswer]
@[simp] theorem signalAnswer_work (h : InHand) (s : State) : (signalAnswer h s).work = s.work := by
  simp [signalAnswer]
@[simp] theorem signalAnswer_engine (h : InHand) (s : State) : (signalAnswer h s).engine = s.engine := by
  simp [signalAnswer]
@[simp] theorem signalAnswer_port (h : InHand) (s : State) : (signalAnswer h s).port = s.port := by
  simp [signalAnswer]
@[simp] theorem signalAnswer_thermal (h : InHand) (s : State) : (signalAnswer h s).thermal = s.thermal := by
  simp [signalAnswer]
@[simp] theorem signalAnswer_free (h : InHand) (s : State) : (signalAnswer h s).free = s.free := by
  simp [signalAnswer]
@[simp] theorem signalAnswer_pending (h : InHand) (s : State) : (signalAnswer h s).pending = s.pending := by
  simp [signalAnswer]

@[simp] theorem loadParameters_intake (b : SetupBlock) (s : State) : (loadParameters b s).intake = s.intake := by
  unfold loadParameters; dsimp only; split <;> rfl
@[simp] theorem loadParameters_slots (b : SetupBlock) (s : State) : (loadParameters b s).slots = s.slots := by
  unfold loadParameters; dsimp only; split <;> rfl
@[simp] theorem loadParameters_work (b : SetupBlock) (s : State) : (loadParameters b s).work = s.work := by
  unfold loadParameters; dsimp only; split <;> rfl
@[simp] theorem loadParameters_engine (b : SetupBlock) (s : State) : (loadParameters b s).engine = s.engine := by
  unfold loadParameters; dsimp only; split <;> rfl
@[simp] theorem loadParameters_writer (b : SetupBlock) (s : State) : (loadParameters b s).writer = s.writer := by
  unfold loadParameters; dsimp only; split <;> rfl
@[simp] theorem loadParameters_port (b : SetupBlock) (s : State) : (loadParameters b s).port = s.port := by
  unfold loadParameters; dsimp only; split <;> rfl
@[simp] theorem loadParameters_thermal (b : SetupBlock) (s : State) : (loadParameters b s).thermal = s.thermal := by
  unfold loadParameters; dsimp only; split <;> rfl
@[simp] theorem loadParameters_free (b : SetupBlock) (s : State) : (loadParameters b s).free = s.free := by
  unfold loadParameters; dsimp only; split <;> rfl
@[simp] theorem loadParameters_pending (b : SetupBlock) (s : State) : (loadParameters b s).pending = s.pending := by
  unfold loadParameters; dsimp only; split <;> rfl

@[simp] theorem enterRun_slots (b : SetupBlock) (s : State) : (enterRun b s).slots = s.slots := by simp [enterRun]
@[simp] theorem enterRun_work (b : SetupBlock) (s : State) : (enterRun b s).work = s.work := by simp [enterRun]
@[simp] theorem enterRun_engine (b : SetupBlock) (s : State) : (enterRun b s).engine = s.engine := by
  simp [enterRun]
@[simp] theorem enterRun_writer (b : SetupBlock) (s : State) : (enterRun b s).writer = s.writer := by
  simp [enterRun]
@[simp] theorem enterRun_port (b : SetupBlock) (s : State) : (enterRun b s).port = s.port := by simp [enterRun]
@[simp] theorem enterRun_thermal (b : SetupBlock) (s : State) : (enterRun b s).thermal = s.thermal := by
  simp [enterRun]
@[simp] theorem enterRun_free (b : SetupBlock) (s : State) : (enterRun b s).free = s.free := by simp [enterRun]
@[simp] theorem enterRun_pending (b : SetupBlock) (s : State) : (enterRun b s).pending = s.pending := by
  simp [enterRun]

@[simp] theorem setupReturned_slots (b : List Byte) (s : State) : (setupReturned b s).slots = s.slots := by
  unfold setupReturned; split <;> (try split) <;> simp
@[simp] theorem setupReturned_work (b : List Byte) (s : State) : (setupReturned b s).work = s.work := by
  unfold setupReturned; split <;> (try split) <;> simp
@[simp] theorem setupReturned_engine (b : List Byte) (s : State) : (setupReturned b s).engine = s.engine := by
  unfold setupReturned; split <;> (try split) <;> simp
@[simp] theorem setupReturned_writer (b : List Byte) (s : State) : (setupReturned b s).writer = s.writer := by
  unfold setupReturned; split <;> (try split) <;> simp
@[simp] theorem setupReturned_port (b : List Byte) (s : State) : (setupReturned b s).port = s.port := by
  unfold setupReturned; split <;> (try split) <;> simp
@[simp] theorem setupReturned_thermal (b : List Byte) (s : State) : (setupReturned b s).thermal = s.thermal := by
  unfold setupReturned; split <;> (try split) <;> simp
@[simp] theorem setupReturned_free (b : List Byte) (s : State) : (setupReturned b s).free = s.free := by
  unfold setupReturned; split <;> (try split) <;> simp
@[simp] theorem setupReturned_pending (b : List Byte) (s : State) : (setupReturned b s).pending = s.pending := by
  unfold setupReturned; split <;> (try split) <;> simp

@[simp] theorem setupFault_intake (s : State) : (setupFault s).intake = s.intake := by simp [setupFault]
@[simp] theorem setupFault_slots (s : State) : (setupFault s).slots = s.slots := by simp [setupFault]
@[simp] theorem setupFault_tap (s : State) : (setupFault s).tap = s.tap := by simp [setupFault]
@[simp] theorem setupFault_work (s : State) : (setupFault s).work = s.work := by simp [setupFault]
@[simp] theorem setupFault_engine (s : State) : (setupFault s).engine = s.engine := by simp [setupFault]
@[simp] theorem setupFault_writer (s : State) : (setupFault s).writer = s.writer := by simp [setupFault]
@[simp] theorem setupFault_report (s : State) : (setupFault s).report = s.report := by simp [setupFault]
@[simp] theorem setupFault_port (s : State) : (setupFault s).port = s.port := by simp [setupFault]
@[simp] theorem setupFault_thermal (s : State) : (setupFault s).thermal = s.thermal := by simp [setupFault]
@[simp] theorem setupFault_free (s : State) : (setupFault s).free = s.free := by simp [setupFault]
@[simp] theorem setupFault_pending (s : State) : (setupFault s).pending = s.pending := by simp [setupFault]

@[simp] theorem exchangeFault_tap (s : State) : (exchangeFault s).tap = s.tap := by
  unfold exchangeFault; split <;> rfl
@[simp] theorem exchangeFault_thermal (s : State) : (exchangeFault s).thermal = s.thermal := by
  unfold exchangeFault; split <;> rfl
@[simp] theorem exchangeFault_free (s : State) : (exchangeFault s).free = s.free := by
  unfold exchangeFault; split <;> rfl
@[simp] theorem exchangeFault_pending (s : State) : (exchangeFault s).pending = s.pending := by
  unfold exchangeFault; split <;> rfl

@[simp] theorem busError_tap (r : Request) (s : State) : (busError r s).tap = s.tap := by
  unfold busError; split <;> simp
@[simp] theorem busError_thermal (r : Request) (s : State) : (busError r s).thermal = s.thermal := by
  unfold busError; split <;> simp
@[simp] theorem busError_free (r : Request) (s : State) : (busError r s).free = s.free := by
  unfold busError; split <;> simp
@[simp] theorem busError_pending (r : Request) (s : State) : (busError r s).pending = s.pending := by
  unfold busError; split <;> simp

end Sys2Proof.Machine
end

