-- ==== Sys2Proof/Laws/Work.lean ====
section
/-! SUPPORT. Laws of the work list and of the start of a band, and what a docket's live read leads to. -/

namespace Sys2Proof.Machine

theorem isWaitingRush_iff (e : Entry) : isWaitingRush e = true ↔ e.state = .waiting ∧ e.rush = true := by
  simp [isWaitingRush]

theorem isWaitingBurst_iff (e : Entry) : isWaitingBurst e = true ↔ e.state = .waiting ∧ e.rush = false := by
  simp [isWaitingBurst]

theorem isParked_iff (e : Entry) : isParked e = true ↔ e.state = .parked := by simp [isParked]

theorem runFirst_append (want : Entry → Bool) (pre : List Entry) (e : Entry) (post : List Entry)
    (h : ∀ x ∈ pre, want x = false) (he : want e = true) :
    runFirst want (pre ++ e :: post) = pre ++ { e with state := .running } :: post := by
  induction pre with
  | nil => simp [runFirst, he]
  | cons a pre ih => simp [runFirst, h a (by simp)]; exact ih (fun x hx => h x (by simp [hx]))

theorem runningEntry_append (pre : List Entry) (e : Entry) (post : List Entry) (h : ∀ x ∈ pre, x.state ≠ .running)
    (he : e.state = .running) : runningEntry (pre ++ e :: post) = some e := by
  unfold runningEntry
  rw [List.find?_append, List.find?_eq_none.2 (by intro x hx; simpa using h x hx)]
  simp [he]

theorem mapRunning_append (f : Entry → Entry) (pre : List Entry) (e : Entry) (post : List Entry)
    (h : ∀ x ∈ pre, x.state ≠ .running) (h2 : ∀ x ∈ post, x.state ≠ .running) (he : e.state = .running) :
    mapRunning f (pre ++ e :: post) = pre ++ f e :: post := by
  unfold mapRunning
  rw [List.map_append, List.map_cons, if_pos he]
  congr 1
  · conv_rhs => rw [← List.map_id pre]
    apply List.map_congr_left; intro x hx; simp [h x hx]
  · congr 1
    conv_rhs => rw [← List.map_id post]
    apply List.map_congr_left; intro x hx; simp [h2 x hx]

/-! ### A band's requests, issued a part at a time -/

/-- With nothing left to issue, nothing is issued. -/
theorem State.issueMore_nil {s : State} {cache : List CachedRow} {tally : Nat} (h : s.engine = .band cache tally []) :
    s.issueMore = s := by
  unfold State.issueMore; rw [h]

/-- What issuing more of a band's requests does. -/
theorem State.issueMore_issues {s : State} {cache : List CachedRow} {tally : Nat} {rest : List (Use × Access)}
    (h : s.engine = .band cache tally rest) (hr : rest ≠ []) : IssuesSome (.next s.issueMore) s cache tally rest := by
  obtain _ | ⟨x, rest⟩ := rest
  · exact absurd rfl hr
  obtain ⟨n, hn, he⟩ := s.port.issueSome_spec s.free Use.isBand (x :: rest)
  exact ⟨n, by simpa [Use.isBand] using hn, by simp only [State.issueMore, h, he]⟩

/-- What follows a reply or an acknowledgement of the band in progress. -/
theorem State.bandMoves_cases (s : State) (kind : Use → Bool) (rest : List (Use × Access)) (finished : State → State) :
    (rest ≠ [] ∧ s.bandMoves kind rest finished = s.issueMore)
      ∨ (rest = [] ∧ s.port.has kind = true ∧ s.bandMoves kind rest finished = s)
      ∨ (rest = [] ∧ s.port.has kind = false ∧ s.bandMoves kind rest finished = finished s) :=
  s.proceed_cases kind rest _ finished

/-! ### The reads of an image, issued a part at a time -/

/-- What issuing more of an image's reads does. -/
theorem State.readMore_reads {s : State} {seq : Count} {slot : Nat} {image : List Byte} {reads : List (Use × Access)}
    (h : s.intake.phase = .executing seq slot image reads) (hr : reads ≠ []) :
    ReadsSome (.next s.readMore) s seq slot image reads := by
  obtain _ | ⟨x, reads⟩ := reads
  · exact absurd rfl hr
  obtain ⟨n, hn, he⟩ := s.port.issueSome_spec s.free Use.isImage (x :: reads)
  exact ⟨n, hn, by simp only [State.readMore, h, he]⟩

/-- Steps 1 to 3 of an install passed: the slot is LOADING and the reads of its image begin to be issued. -/
theorem installReturned_ok {bytes : List Byte} {s : State} {i : Nat}
    (h : installCheck s.slots s.params (slotField bytes) (imageAddr bytes) (imageLength bytes) = .ok i) (seq : Count) :
    installReturned bytes seq s = State.readMore { s with
      slots := s.slots.set i .loading
      intake := { s.intake with
        install := true
        phase := .executing seq i (List.replicate (imageLength bytes) 0)
          (imageReads (imageAddr bytes)
            (cutExtent (Config.freePiece s.free) (imageLength bytes) (imageLength bytes))) } } := by
  have h' : installCheck s.slots (State.params { s with intake := { s.intake with install := true } })
      (slotField bytes) (imageAddr bytes) (imageLength bytes) = .ok i := h
  unfold installReturned; simp only [h']

/-- The four things the return of a read of the image can do. -/
theorem imageReturned_cases (bytes : List Byte) (r : Request) (s : State) :
    imageReturned bytes r s = s
      ∨ ∃ (seq : Count) (slot offset : Nat) (before : List Byte) (unissued : List (Use × Access)),
        s.intake.phase = .executing seq slot before unissued ∧ r.use = .image offset
        ∧ let image := putBytes before offset bytes
          let u : State := { s with intake := { s.intake with phase := .executing seq slot image unissued } }
          imageReturned bytes r s = u.readMore ∨ imageReturned bytes r s = u
            ∨ imageReturned bytes r s = validateInstall image seq slot u := by
  unfold imageReturned
  split
  · next seq slot before unissued offset hp hu =>
    refine .inr ⟨seq, slot, offset, before, unissued, hp, hu, ?_⟩
    obtain ⟨-, h⟩ | ⟨-, -, h⟩ | ⟨-, -, h⟩ := State.proceed_cases
      { s with intake := { s.intake with phase := .executing seq slot (putBytes before offset bytes) unissued } }
      Use.isImage unissued State.readMore (validateInstall (putBytes before offset bytes) seq slot)
    · exact .inl h
    · exact .inr (.inl h)
    · exact .inr (.inr h)
  · exact .inl rfl

/-- The reads of an extent are not empty and make it up. -/
theorem cutExtent_spec (size : Nat → Nat) {fuel left : Nat} (h : left ≤ fuel) :
    (∀ k ∈ cutExtent size fuel left, 1 ≤ k) ∧ (cutExtent size fuel left).sum = left := by
  induction fuel generalizing left with
  | zero => simp [cutExtent]; omega
  | succ fuel ih =>
    by_cases h0 : left = 0
    · simp [cutExtent, h0]
    · obtain ⟨h1, h2⟩ := ih (left := left - min left (max 1 (size left))) (by omega)
      simp only [cutExtent, if_neg h0, List.mem_cons, List.sum_cons, h2]
      refine ⟨?_, by omega⟩
      rintro k (rfl | hk)
      · omega
      · exact h1 k hk

/-- R64: the output rows of a band. -/
theorem mem_bandRows {g : Geometry} {b yo : Nat} :
    yo ∈ bandRows g b ↔ 32 * b ≤ yo ∧ yo < 32 * b + 32 ∧ yo < g.ho := by
  simp only [bandRows, Config.bandRows, List.mem_map, List.mem_range]
  constructor
  · rintro ⟨i, hi, rfl⟩; omega
  · rintro ⟨h1, h2, h3⟩; exact ⟨yo - 32 * b, by omega, by omega⟩

/-- A band with an output row has writes. -/
theorem bandWrites_ne_nil (e : Entry) (p : Params) (cache : List CachedRow) {b : Nat} (h : 32 * b < e.geo.ho) :
    bandWrites e p cache b ≠ [] := by
  intro he
  have hm : 32 * b ∈ bandRows e.geo b := mem_bandRows.2 ⟨Nat.le_refl _, by omega, h⟩
  have := List.flatMap_eq_nil_iff.1 he _ hm
  cases this

/-- A band's samples computed: its writes begin to be issued. -/
theorem computeBand_issues {s : State} {e : Entry} {cache : List CachedRow} {tally : Nat} {rest : List (Use × Access)}
    (hw : runningEntry s.work = some e) (he : s.engine = .band cache tally rest) (hb : 32 * e.nextBand < e.geo.ho) :
    IssuesSome (.next (computeBand s)) s cache (bandTally e s.params e.nextBand)
      (bandWrites e s.params cache e.nextBand) := by
  unfold computeBand
  simp only [hw, he]
  exact State.issueMore_issues (s := { s with
      engine := .band cache (bandTally e s.params e.nextBand) (bandWrites e s.params cache e.nextBand) })
    rfl (bandWrites_ne_nil _ _ _ hb)

/-- The start of a band of the RUNNING entry. -/
theorem startBand_starts (s : State) (pre : List Entry) (e : Entry) (post : List Entry) (hw : s.work = pre ++ e :: post)
    (h : ∀ x ∈ pre, x.state ≠ .running) (h2 : ∀ x ∈ post, x.state ≠ .running) (he : e.state = .running) :
    let e' : Entry := { e with notes := if s.thermal.warning then addNote e.notes .warm else e.notes }
    StartsBand (.next (startBand s)) { s with work := pre ++ e' :: post } e' := by
  intro e'
  have hm : warmRunning s.thermal.warning s.work = pre ++ e' :: post := by
    rw [hw, warmRunning, mapRunning_append _ pre e post h h2 he]; rfl
  have hs : startBand s = (if (bandReads e s.params e.nextBand).isEmpty then
      computeBand { s with engine := .band [] 0 (bandReads e s.params e.nextBand), work := pre ++ e' :: post }
    else State.issueMore { s with
      engine := .band [] 0 (bandReads e s.params e.nextBand), work := pre ++ e' :: post }) := by
    unfold startBand
    rw [hm, hw, runningEntry_append pre e post h he]
  constructor
  · intro hr
    replace hr : bandReads e s.params e.nextBand ≠ [] := hr
    rw [hs, if_neg (by simpa using hr)]
    exact State.issueMore_issues (s := { s with
      engine := .band [] 0 (bandReads e s.params e.nextBand), work := pre ++ e' :: post }) rfl hr
  · intro hr hb
    replace hr : bandReads e s.params e.nextBand = [] := hr
    rw [hs, if_pos (by simp [hr])]
    exact computeBand_issues (s := { s with
      engine := .band [] 0 (bandReads e s.params e.nextBand), work := pre ++ e' :: post }) (e := e')
      (runningEntry_append pre e' post h he) rfl hb

/-! ### The port without a request -/

theorem has_portWithout (s : State) (tag : Nat) (sort : Use → Bool) :
    Port.has (s.portWithout tag) sort = true
      ↔ ∃ r ∈ s.port.reqs, r.tag ≠ tag ∧ r.live = true ∧ sort r.use = true := by
  rw [Port.has_eq_true]
  simp only [State.portWithout, List.mem_filter, bne_iff_ne]
  constructor
  · rintro ⟨r, ⟨a, b⟩, c, d⟩; exact ⟨r, a, b, c, d⟩
  · rintro ⟨r, a, b, c, d⟩; exact ⟨r, ⟨a, b⟩, c, d⟩

/-- Replies to reads being ignored changes nothing about the writes outstanding. -/
theorem has_ignoreReads (p : Port) : (p.ignore Use.isBandRead).has Use.isBandWrite = p.has Use.isBandWrite := by
  rw [Bool.eq_iff_iff, Port.has_eq_true, Port.has_eq_true]
  simp only [Port.ignore, List.mem_map]
  constructor
  · rintro ⟨r, ⟨q, hq, rfl⟩, hl, hu⟩
    by_cases hx : q.use.isBandRead = true
    · rw [if_pos hx] at hl; cases hl
    · rw [if_neg hx] at hl hu; exact ⟨q, hq, hl, hu⟩
  · rintro ⟨q, hq, hl, hu⟩
    refine ⟨q, ⟨q, hq, ?_⟩, hl, hu⟩
    rw [if_neg]; cases hq' : q.use <;> simp_all [Use.isBandRead, Use.isBandWrite]

/-! ### Answers -/

/-- The three things the acknowledgement of a write of the answer can do. -/
theorem answerWriteAcked_cases (r : Request) (s : State) :
    answerWriteAcked r s = s
      ∨ ∃ h, s.writer.inHand = some h ∧ h.stage = .writing
        ∧ ((r.use = .answer .outcome ∧ answerWriteAcked r s = answerAcked h s)
          ∨ (r.use ≠ .answer .outcome ∧ answerWriteAcked r s = issueAnswerWrite h s)) := by
  unfold answerWriteAcked withInHand
  split
  · next h hh =>
    by_cases hs : h.stage = .writing
    · refine .inr ⟨h, hh, hs, ?_⟩
      rw [if_pos hs]
      by_cases hu : r.use = .answer .outcome
      · exact .inl ⟨hu, by rw [if_pos hu]⟩
      · exact .inr ⟨hu, by rw [if_neg hu]⟩
    · exact .inl (by rw [if_neg hs])
  · exact .inl rfl

/-! ### Dockets -/

theorem State.working_of_idle {s : State} (h : s.win.state = .setup ∨ s.win.state = .halted) : s.working = false := by
  rcases h with h | h <;> simp [State.working, h]

theorem State.error_eq_withError (s : State) (e : ErrorCode) : s.error e = s.withError e := by
  simp only [State.error, State.withError, Signalling.error]; cases s.sig.firstError <;> rfl

/-- The live read of the docket in hand, returned with this row's kind, has the row's effect. -/
theorem docketReturned_live {s : State} {tag : Nat} {seq : Count} {bytes : List Byte} (h : s.awaitsDocket tag seq bytes)
    {thisRow : Bool} (ht : thisRow = true) (k : Count → State → State) :
    docketReturned tag bytes thisRow k s = k seq { s with port := s.portWithout tag } := by
  obtain ⟨⟨addr, hf⟩, hl, hp⟩ := h
  unfold docketReturned
  rw [onReply_live hf (by simp [Access.readLength, hl, ht]) rfl]
  simp [hp]

end Sys2Proof.Machine
end

