-- ==== Sys2Proof/Laws/Dockets.lean ====
section
/-! SUPPORT. What the shared operations do to the dockets taken and not yet answered, and to the entries' states. -/

namespace Sys2Proof.Machine

/-! ### Sequence numbers in the work list -/

theorem mapRunning_seq {f : Entry → Entry} (hf : ∀ e, (f e).seq = e.seq) (work : List Entry) :
    (mapRunning f work).map Entry.seq = work.map Entry.seq := by
  rw [mapRunning, List.map_map]
  refine List.map_congr_left fun e _ => ?_
  dsimp only [Function.comp]
  split <;> simp [hf]

@[simp] theorem warmRunning_seq (warning : Bool) (work : List Entry) :
    (warmRunning warning work).map Entry.seq = work.map Entry.seq := by
  unfold warmRunning
  exact mapRunning_seq (by intro e; rfl) work

@[simp] theorem runFirst_seq (want : Entry → Bool) (work : List Entry) :
    (runFirst want work).map Entry.seq = work.map Entry.seq := by
  induction work with
  | nil => rfl
  | cons e rest ih => unfold runFirst; split <;> simp [ih]

@[simp] theorem pickFrom_seq (work : List Entry) : (pickFrom work).map Entry.seq = work.map Entry.seq := by
  unfold pickFrom; split
  · exact runFirst_seq _ _
  · split <;> exact runFirst_seq _ _

theorem leaveList_seq (work : List Entry) (seq : Count) :
    (leaveList work seq).map Entry.seq = (work.map Entry.seq).erase seq := by
  unfold leaveList
  induction work with
  | nil => rfl
  | cons e rest ih =>
    rw [List.map_cons, List.erase_cons, List.eraseP_cons]
    cases h : (e.seq == seq) <;> simp [ih]

/-! ### Entries made, and the one RUNNING -/

/-- What the resolver makes of a frame is WAITING, under the docket's sequence number, with no band done. -/
theorem resolution_made {s : State} {seq : Count} {f : FrameFields} {e : Entry} (h : resolution s seq f = .ok e) :
    e.seq = seq ∧ e.geo = f.geo ∧ e.state = .waiting ∧ e.nextBand = 0 := by
  unfold resolution at h
  split at h
  · cases h
  all_goals cases h; exact ⟨rfl, rfl, rfl, rfl⟩

/-- A frame that passes its checks has 1 to 192 bands. -/
theorem frameChecks_bands {p : Params} {f : FrameFields} (h : firstFailure (frameChecks p f) = none) :
    FrameBandsOk f.geo := by
  simp only [frameChecks, firstFailure] at h
  split at h
  · split at h
    · next hg =>
      split at h
      · next hk =>
        have hg := of_decide_eq_true hg
        unfold FrameBandsOk Geometry.bands Geometry.ho
        rcases of_decide_eq_true hk with hk | hk | hk <;> rw [hk] <;> omega
      · cases h
    · cases h
  · cases h

/-- Where at most one entry is RUNNING, two that are RUNNING are the same. -/
theorem running_unique {work : List Entry} (h : work.countP isRunning ≤ 1) {x y : Entry} (hx : x ∈ work) (hy : y ∈ work)
    (rx : x.state = .running) (ry : y.state = .running) : x = y := by
  obtain ⟨pre, post, rfl⟩ := List.append_of_mem hx
  rw [List.countP_append, List.countP_cons, if_pos (by simp [isRunning, rx])] at h
  have none_else : ∀ z, z ∈ pre ∨ z ∈ post → z.state ≠ .running := by
    rintro z (hz | hz) hr
    · have := List.countP_pos_iff.2 ⟨z, hz, show isRunning z = true by simp [isRunning, hr]⟩; omega
    · have := List.countP_pos_iff.2 ⟨z, hz, show isRunning z = true by simp [isRunning, hr]⟩; omega
  rcases List.mem_append.1 hy with hy | hy
  · exact absurd ry (none_else y (.inl hy))
  · rcases List.mem_cons.1 hy with hy | hy
    · exact hy.symm
    · exact absurd ry (none_else y (.inr hy))

/-! ### The docket at the intake unit -/

/-- More of the image's reads are issued within the same install. -/
theorem State.readMore_phase {s : State} {seq : Count} {slot : Nat} {image : List Byte} {reads : List (Use × Access)}
    (h : s.intake.phase = .executing seq slot image reads) :
    ∃ rest, s.readMore.intake.phase = .executing seq slot image rest := by
  unfold State.readMore
  split
  · next h' => rw [h] at h'; cases h'; exact ⟨_, rfl⟩
  · exact ⟨reads, h⟩

/-- While the phase is not WRITING, the outcome writer has no answer of the intake unit's own. -/
theorem DocketsOk.not_writing {s : State} (h : DocketsOk s) (hp : s.intake.phase ≠ .writing) :
    s.writer.waiting.flatMap WaitingAnswer.docket = [] ∧ (∀ x, s.writer.inHand = some x → x.ofEntry = true)
      ∧ s.atIntake = s.intake.phase.docket := by
  have h0 := h.2.2.2.1
  rw [if_neg hp, OutcomeWriter.ofIntake] at h0
  have waiting : s.writer.waiting.flatMap WaitingAnswer.docket = [] := by rw [← List.length_eq_zero_iff]; omega
  have hand : ∀ x, s.writer.inHand = some x → x.ofEntry = true := by
    intro x hx
    rw [hx] at h0
    cases hx : x.ofEntry
    · simp [hx] at h0
    · rfl
  refine ⟨waiting, hand, ?_⟩
  unfold State.atIntake
  cases hx : s.writer.inHand with
  | none => simp [waiting]
  | some x => simp [waiting, InHand.docket, hand x hx]

/-! ### The retire check -/

theorem ahead_moved {r x : Count} {k : Nat} (h : k ≤ ahead r x) :
    ahead (r + BitVec.ofNat 16 k) x = ahead r x - k := by
  unfold ahead at *
  have := x.isLt; have := r.isLt
  simp only [BitVec.toNat_sub, BitVec.toNat_add, BitVec.toNat_ofNat] at *
  omega

/-- Two dockets among the 64 from the retired count on that share a strip slot are the same. -/
theorem strip_slot_unique {r x y : Count} (hx : ahead r x < 64) (hy : ahead r y < 64)
    (h : x.toNat % 64 = y.toNat % 64) : x = y := by
  apply BitVec.eq_of_toNat_eq
  unfold ahead at *
  have := x.isLt; have := y.isLt; have := r.isLt
  simp only [BitVec.toNat_sub] at *
  omega

/-- The retire check does not pass a docket whose flag is clear. -/
theorem retireFrom_le {map : BitVec 64} {r x : Count} {k : Nat}
    (hset : ∀ j < k, flagOf map (r + BitVec.ofNat 16 j) = true) (hx : flagOf map x = false) : k ≤ ahead r x := by
  by_contra hlt
  have h := hset (ahead r x) (by omega)
  have : r + BitVec.ofNat 16 (ahead r x) = x := by
    apply BitVec.eq_of_toNat_eq
    unfold ahead
    have := x.isLt; have := r.isLt
    simp only [BitVec.toNat_add, BitVec.toNat_ofNat, BitVec.toNat_sub]; omega
  rw [this, hx] at h
  cases h

/-- The answered docket `q` left the dockets `l` not yet answered: its flag set and the retire check made, they stand in
the same order between the retired count and the taken count, their flags clear. -/
theorem retireFrom_open {r c q : Count} {map : BitVec 64} {l : List Count} (hw : ahead r c ≤ 64)
    (hq : ahead r q < ahead r c) (hl : l.Pairwise fun a b => ahead r a < ahead r b)
    (hx : ∀ x ∈ l, ahead r x < ahead r c ∧ map.getLsbD (x.toNat % 64) = false ∧ x ≠ q) :
    let r' := retireFrom (setFlag map q) (ahead r c) r
    l.Pairwise (fun a b => ahead r' a < ahead r' b)
      ∧ ∀ x ∈ l, ahead r' x < ahead r' c ∧ (setFlag map q).getLsbD (x.toNat % 64) = false := by
  intro r'
  obtain ⟨k, hk, he, hf, -⟩ := retireFrom_spec (setFlag map q) (ahead r c) r
  have clear : ∀ x ∈ l, (setFlag map q).getLsbD (x.toNat % 64) = false := by
    intro x h
    obtain ⟨h1, h2, h3⟩ := hx x h
    rw [getLsbD_setFlag, h2, Bool.false_or, decide_eq_false_iff_not]
    exact fun hm => h3 (strip_slot_unique (r := r) (by omega) (by omega) hm)
  have le : ∀ x ∈ l, k ≤ ahead r x := fun x h => retireFrom_le hf (clear x h)
  have moved : ∀ x, k ≤ ahead r x → ahead r' x = ahead r x - k := fun x h => (show r' = _ from he) ▸ ahead_moved h
  refine ⟨?_, fun x h => ⟨?_, clear x h⟩⟩
  · refine hl.imp_of_mem fun {a b} ha hb h => ?_
    rw [moved a (le a ha), moved b (le b hb)]
    have := le a ha; omega
  · rw [moved x (le x h), moved c hk]
    have := (hx x h).1; have := le x h; omega

end Sys2Proof.Machine
end

