-- ==== Sys2Proof/Laws/Effects.lean ====
section
/-! SUPPORT. What a command can do, said once: nothing, the end of a request, or its own effect on the state. A property
that every effect keeps is kept by every step. -/

namespace Sys2Proof.Machine

/-- A docket's effect where intake is reading it. -/
def whileReading (k : Count → State → State) (s : State) : State :=
  match s.intake.phase with
  | .reading seq => k seq s
  | _ => s

/-- The state a command leads to. -/
def after (c : Instr) (s : State) : State :=
  match exec c s with
  | .next t => t
  | _ => s

/-- The effect of a command; of a reply, an acknowledgement or a bus error, its effect apart from the request's end, `r`
being that request. -/
def effect (c : Instr) (r : Request) (s : State) : State :=
  match c with
  | .setupReadReturn _ bytes => setupReturned bytes s
  | .setupReadFault _ => setupFault s
  | .frameDocket _ bytes => whileReading (frameReturned (frameFields bytes)) s
  | .installDocket _ bytes => whileReading (installReturned bytes) s
  | .dropDocket _ bytes => whileReading (dropReturned bytes) s
  | .trimNudge _ bytes => whileReading (nudgeReturned bytes) s
  | .trimSet _ bytes => whileReading (setReturned bytes) s
  | .badTrimMode _ bytes => whileReading (badModeReturned bytes) s
  | .optionsDocket _ bytes => whileReading (optionsReturned bytes) s
  | .badKindDocket _ bytes =>
      whileReading (fun seq s => s.answer (refusal seq (docketKind bytes) false .badKind [])) s
  | .installValidation _ bytes => imageReturned bytes r s
  | .imageReadFault _ => imageFault s
  | .bandReadReturn _ bytes => rowReturned bytes r s
  | .bandWriteAck _ => writeAcked r s
  | .bandBusError _ => bandFailed s
  | .memoryRequestTimeout _ => busError r s
  | .outcomeWriteAck _ => answerWriteAcked r s
  | .reportWriteAck _ => reportWriteAcked r s
  | .exchangeFault _ => Sys2Proof.Machine.exchangeFault s
  | c => after c s

/-- A reply changes nothing, ends its request, or ends it with its effect. -/
theorem onReply_effect (tag : Nat) (fits : Request → Bool) (k : Request → State → State) (s : State) :
    onReply tag fits k s = s ∨ (∃ p, onReply tag fits k s = { s with port := p })
      ∨ ∃ r p, onReply tag fits k s = k r { s with port := p } := by
  obtain h | ⟨r, -, -, ⟨-, h⟩ | ⟨-, h⟩⟩ := onReply_cases tag fits k s
  · exact .inl h
  · exact .inr (.inl ⟨_, h⟩)
  · exact .inr (.inr ⟨r, _, h⟩)

/-- The three things a command can do. -/
theorem exec_effect {c : Instr} {s t : State} (h : exec c s = .next t) :
    t = s ∨ (∃ p, t = { s with port := p }) ∨ ∃ r p, t = effect c r { s with port := p } := by
  have ha : after c s = t := by rw [after, h]
  cases c
  all_goals
    first
    | exact .inr (.inr ⟨⟨0, .docket, .read 0 0, true⟩, s.port, ha.symm⟩)
    | (rw [← Host.Outcome.next.inj h]; exact onReply_effect _ _ _ s)

/-- What does not depend on the port and is kept by every effect is kept by every command. -/
theorem exec_keeps {P : State → Prop} (hp : ∀ s p, P s → P { s with port := p })
    (he : ∀ c r s, P s → P (effect c r s)) {c : Instr} {s t : State} (hs : P s) (h : exec c s = .next t) : P t := by
  obtain rfl | ⟨p, rfl⟩ | ⟨r, p, rfl⟩ := exec_effect h
  · exact hs
  · exact hp _ _ hs
  · exact he _ _ _ (hp _ _ hs)

/-- What depends on neither the port nor the queue and is kept by every effect is kept by every step. -/
theorem step_keeps {P : State → Prop} (hp : ∀ s p, P s → P { s with port := p })
    (hq : ∀ s q, P s → P { s with pending := q }) (he : ∀ c r s, P s → P (effect c r s)) {s t : State} (hs : P s)
    (h : step s = .next t) : P t := by
  unfold step at h
  split at h
  · exact Host.Outcome.next.inj h ▸ hs
  · exact exec_keeps hp he (hq _ _ hs) h

end Sys2Proof.Machine
end

