-- ==== Sys2Proof/WellFormed.lean ====
section
/-! DEFINITION. Which terms of `Instr` are commands the table's rows name: a lens line is one, the bytes of a return are
as many as its read asked for and their kind and mode are the row's own, the register write is not another row's. -/

namespace Sys2Proof

/-- The middle of a stop bit. -/
def LineEvent.isStop : LineEvent → Bool
  | .stop _ => true
  | _ => false

/-- R24: on the lens line a start bit and its stop bit follow each other, with no idle stretch and no other start bit
between them. The first event may belong to a byte that began before. -/
def lineWf : List LineEvent → Bool
  | a :: b :: rest => (a == .start) == b.isStop && lineWf (b :: rest)
  | _ => true

/-- The bytes of a docket read (R112) whose kind byte (R131) satisfies `kind`. -/
def docketWf (bytes : List Byte) (kind : Byte → Bool) : Bool :=
  bytes.length == Config.docketReadBytes && kind (bytes.getD 0 0)

/-- The bytes of a TRIM docket (kind 4) whose mode byte (R133) satisfies `mode`. -/
def trimWf (bytes : List Byte) (mode : Byte → Bool) : Bool :=
  docketWf bytes (· == 4) && mode (bytes.getD 17 0)

/-- R174: a register write that no other row of the table takes: narrower than 32 bits, to ID or STATUS, or outside
the five registers. The registers the other rows take are CTRL 0x04, POST 0x08 and XBASE 0x10 (R128). -/
def otherWriteWf (offset width : Nat) : Bool :=
  (width == 1 || width == 2 || width == 4) &&
    (width < 4 || !(offset == 0x04 || offset == 0x08 || offset == 0x10))

/-- The well-formed commands. -/
def Instr.wf : Instr → Bool
  | .powerOnReset => true
  | .tick => true
  | .eraYoungClear => true
  | .sync => true
  | .lensMessage line => lineWf line
  | .quietTimerExpiry => true
  | .temperatureSample _ => true
  | .ack _ => true
  | .clearFaults => true
  | .errorClear => true
  | .irqEnableUpdate _ _ => true
  | .cancel => true
  | .modeRun => true
  | .modeReopen => true
  | .softReset => true
  | .postWrite _ => true
  | .xbaseWrite _ => true
  | .otherRegisterWrite offset width _ => otherWriteWf offset width
  | .setupReadReturn _ bytes => bytes.length == Config.setupReadBytes
  | .setupReadFault _ => true
  | .takeDocket => true
  | .frameDocket _ bytes => docketWf bytes (· == 1)
  | .installDocket _ bytes => docketWf bytes (· == 2)
  | .dropDocket _ bytes => docketWf bytes (· == 3)
  | .trimNudge _ bytes => trimWf bytes (· == 0)
  | .trimSet _ bytes => trimWf bytes (· == 1)
  | .optionsDocket _ bytes => docketWf bytes (· == 5)
  | .badKindDocket _ bytes => docketWf bytes (fun k => k == 0 || 5 < k.toNat)
  | .installValidation _ bytes => 1 ≤ bytes.length && bytes.length ≤ Config.imageMax
  | .imageReadFault _ => true
  | .resolveFrame => true
  | .pick => true
  | .bandReadReturn _ bytes => bytes.length % 2 == 0
  | .bandWriteAck _ => true
  | .bandBusError _ => true
  | .memoryRequestTimeout _ => true
  | .drainEnd => true
  | .outcomeTakeUp => true
  | .outcomeWriteAck _ => true
  | .reportWriteTakeUp => true
  | .reportWriteAck _ => true
  | .signallingUpdate => true
  | .exchangeFault _ => true
  | .markDocket => true
  | .cancelComplete => true
  | .badTrimMode _ bytes => trimWf bytes (fun m => m != 0 && m != 1)

end Sys2Proof
end

