-- ==== Sys2Proof/Tests/Slice0.lean ====
section
/-! SUPPORT. Tests: well-formedness, single steps whose results the manual's worked examples give, and for every
statement with hypotheses a witness that meets them. -/

namespace Sys2Proof.Tests

open Sys2Proof Sys2Proof.Machine

/-! ### Small states, messages, dockets and profiles -/

/-- The state after a command. -/
def run (c : Instr) (s : State) : State :=
  match exec c s with
  | .next t => t
  | _ => s

/-- A part in RUN with a window of 64 KiB. -/
def inRun : State :=
  { State.reset with win :=
    { State.reset.win with state := .run, locked := some { wf := 8192, hf := 5464, low := 0, high := 65536 } } }

/-- The state with one live request outstanding under the name 7. -/
def waitsFor (use : Use) (access : Access) (s : State) : State :=
  { s with port := { reqs := [{ tag := 7, use, access, live := true }], nextTag := 8 } }

/-- The state with a second live request outstanding. -/
def alsoWaitsFor (use : Use) (access : Access) (s : State) : State :=
  { s with port := { s.port with reqs := s.port.reqs ++ [{ tag := 9, use, access, live := true }] } }

/-- A record of 128 bytes, its fields given as offset, size and value. -/
def record (fields : List (Nat × Nat × Nat)) : List Byte :=
  (List.range 128).map fun i =>
    match fields.find? (fun f => f.1 ≤ i && i < f.1 + f.2.1) with
    | some f => BitVec.ofNat 8 (f.2.2 / 256 ^ (i - f.1))
    | none => 0

/-- A part in RUN whose intake unit waits for docket 0. -/
def readingDocket (s : State) : State :=
  waitsFor .docket (.read 4096 128) { s with intake := { s.intake with phase := .reading 0, taken := 1 } }

/-- A run of bytes heard with good stop bits at timebase value `t`. -/
def heard (values : List Nat) (t : Nat) : Run :=
  { bytes := values.map fun v => { samples := BitVec.ofNat 9 (256 + v), stopTime := BitVec.ofNat 32 t }
    crossedSync := false }

/-- A run on the lens line, after a gap and up to the end of the gap that closes it. -/
def line (values : List Nat) : List LineEvent :=
  .idle 32 :: values.flatMap (fun v => [.start, .stop (BitVec.ofNat 9 (256 + v)), .idle 2]) ++ [.idle 30]

/-- The receiver with the last byte of a run behind it and no idle line yet. -/
def after (run : Run) : Receiver := { phase := .idle, idleBits := 0, run := some run }

/-- Section 2.7, event 1: identity (4121, 1), a position report, sequence 17, focal 2400. The bytes by R135: 4121 is
0x1019, 2400 is 0x0960, and the first seven bytes sum to 288, that is 32 modulo 256, so the check byte is 223. -/
def event1Bytes : List Nat := [0x6C, 0x19, 0x10, 0x11, 0x60, 0x09, 17, 223]

def event1 (t : Nat) : Run := heard event1Bytes t

/-- A message of (4121, 1) of kind 2, which is no position report; the bytes before the check byte sum to 304. -/
def notice (t : Nat) : Run := heard [0x6C, 0x19, 0x10, 0x21, 0x60, 0x09, 17, 207] t

def lens4121 : LensId := { model := 4121, ext := 1 }
def lens3305 : LensId := { model := 3305, ext := 0 }

/-- The tap of section 2.7 before event 1: L = 300, Q = 40 ms, newest sample (996,000, 2380). -/
def tap27 : Tap :=
  { State.reset.tap with
    eraYoung := false, latency := 300, quietMs := 40, dropped := 2, current := some lens4121, epoch := 3
    log := [{ stamp := 996000, focal := 2380 }] }

def withTap (t : Tap) (s : State) : State := { s with tap := t }

def grey {α : Type} (x : α) : Rgb α := { r := x, g := x, b := x }

/-- A station with two knots, all deltas 0 at u = 0 and `d` at u = 8192. -/
def ramp (focal : Nat) (d : Int) : Station :=
  { focal, knots := [{ u := 0, val := grey 0 }, { u := 8192, val := grey d }] }

/-- A profile of two stations. -/
def profile : Profile :=
  { ident := lens4121, stations := [ramp 1000 0, ramp 2000 (-3000)], trims := { x := 1000, y := -20, scale := 230 } }

/-- A table with `profile` READY in slot 4. -/
def withProfile (s : State) : State := { s with slots := s.slots.set 4 (.ready profile) }

/-- A frame of 16 by 33 pixels at k = 1: two bands, the second of one row. -/
def smallGeometry : Geometry :=
  { inAddr := { r := 0, g := 4096, b := 8192 }, inPitch := 64, w := 16, h := 33, ox := 0, oy := 0, k := 1
    outAddr := { r := 16384, g := 20480, b := 24576 }, outPitch := 64 }

/-- An entry of the work list, with an all-zero curve. -/
def entry (seq : Nat) (rush : Bool) (state : EntryState) (nextBand : Nat) : Entry :=
  { seq := BitVec.ofNat 16 seq, rush, curve := zeroCurve, cx := 65528, cy := 43704, geo := smallGeometry, wl := 1023
    edge := .edge, fill := grey 0, state, nextBand, notes := 0
    result := { ident := none, focal := 0, slot := none, stations := none, weight := 0 }, border := 0 }

/-- A part in RUN with a work list, its engine in a phase. -/
def working (engine : Engine) (work : List Entry) : State := { inRun with engine, work }

/-- A part whose entry 40 runs band `b` and whose last output write is outstanding. -/
def lastWrite (b : Nat) (others : List Entry) : State :=
  waitsFor (.bandWrite .blue 0) (.write [(24576, [0, 0])])
    (working (.band [] 0 []) (entry 40 false .running b :: others))

/-- The bytes of the FRAME docket of the tests: 256 by 256 at k = 1 of the sensor, focal source GIVEN. -/
def frameBytes (wl edgeField focal : Nat) : List Byte :=
  record [(0, 1, 1), (1, 1, 1), (16, 4, 0x0), (20, 4, 0x0), (24, 4, 0x0), (28, 4, 512), (32, 2, 256), (34, 2, 256),
    (44, 1, 1), (45, 1, edgeField), (46, 1, 1), (48, 2, 4121), (50, 1, 1), (52, 2, focal), (54, 2, wl),
    (56, 4, 0x20000), (60, 4, 0x40000), (64, 4, 0x60000), (68, 4, 512), (72, 2, 100), (74, 2, 100), (76, 2, 100)]

/-- A part in RUN with a window that holds the planes of `frameBytes`. -/
def wideRun : State :=
  { State.reset with win :=
    { State.reset.win with state := .run, locked := some { wf := 8192, hf := 5464, low := 0, high := 1048576 } } }

/-- The frame of `frameBytes` as resolution sees it. -/
def frame (focal : Nat) : FrameFields := frameFields (frameBytes 1023 0 focal)

/-- The frame with focal source TAP. -/
def tapFrame : FrameFields := { frame 0 with source := 0, stamp := 5000 }

/-- An answer to docket `seq`, DONE. -/
def answer (seq : Nat) : Answer :=
  { seq := BitVec.ofNat 16 seq, kind := 1, rush := false, outcome := .done, reason := none, notes := some 0
    results := [] }

/-- A part whose outcome writer has an answer in hand. -/
def inHand (h : InHand) (s : State) : State := { s with writer := { inHand := some h, waiting := [] } }

/-- A setup block (R129) that is valid at XBASE 0x10000, with Q = 40 ms. -/
def setupBytes (layout : Nat) : List Byte :=
  (record [(0, 2, layout), (2, 2, 8192), (4, 2, 5456), (6, 2, 40), (8, 4, 0x10000), (12, 4, 0x20000), (16, 2, 300),
    (18, 1, 4), (19, 1, 1), (20, 1, 1), (21, 1, 7)]).take 22

/-- SETUP with the setup block's read outstanding. -/
def readingSetup : State :=
  waitsFor .setupBlock (.read 0x10000 22)
    { State.reset with win := { State.reset.win with xbase := 0x10000, setupRead := true } }

/-! ### Well-formedness: an ill-formed command for each check -/

theorem test_wf_idle_in_a_byte : (Instr.lensMessage [.start, .idle 32]).wf = false := by decide
theorem test_wf_stop_without_start : (Instr.lensMessage [.stop 256, .stop 256]).wf = false := by decide
theorem test_wf_line : (Instr.lensMessage (line event1Bytes)).wf = true := by decide
theorem test_wf_register_write : (Instr.otherRegisterWrite 0x08 4 0).wf = false := by decide
theorem test_wf_register_width : (Instr.otherRegisterWrite 0x0C 3 0).wf = false := by decide
theorem test_wf_setup_length : (Instr.setupReadReturn 7 [0]).wf = false := by decide
theorem test_wf_docket_length : (Instr.frameDocket 7 [1]).wf = false := by decide
theorem test_wf_frame_kind : (Instr.frameDocket 7 (record [(0, 1, 2)])).wf = false := by decide +kernel
theorem test_wf_install_kind : (Instr.installDocket 7 (record [(0, 1, 1)])).wf = false := by decide +kernel
theorem test_wf_drop_kind : (Instr.dropDocket 7 (record [(0, 1, 1)])).wf = false := by decide +kernel
theorem test_wf_options_kind : (Instr.optionsDocket 7 (record [(0, 1, 4)])).wf = false := by decide +kernel
theorem test_wf_known_kind : (Instr.badKindDocket 7 (record [(0, 1, 5)])).wf = false := by decide +kernel
theorem test_wf_nudge_mode : (Instr.trimNudge 7 (record [(0, 1, 4), (17, 1, 1)])).wf = false := by decide +kernel
theorem test_wf_set_mode : (Instr.trimSet 7 (record [(0, 1, 4)])).wf = false := by decide +kernel
theorem test_wf_bad_mode : (Instr.badTrimMode 7 (record [(0, 1, 4), (17, 1, 1)])).wf = false := by decide +kernel
theorem test_wf_image_length : (Instr.installValidation 7 (List.replicate 1073 0)).wf = false := by decide +kernel
theorem test_wf_row_length : (Instr.bandReadReturn 7 [0]).wf = false := by decide +kernel

/-! ### The decoder -/

/-- No row of the table gives bits, so no word spells a command and the fetch word changes nothing. -/
theorem test_no_word_decodes : decodeTableWord 32 0 = none ∧ State.reset.withFetchWord 32 0 = State.reset := by decide

/-! ### Single steps -/

/-- R172: power-on reset returns the block to its initial state. -/
theorem test_power_on : run .powerOnReset (withTap tap27 inRun) = State.reset := by decide +kernel

theorem test_tick : (run .tick (withTap tap27 inRun)).tap.timebase = 1 := by decide +kernel

/-- R21: the flag goes at 2000, not at 1999. -/
theorem test_era_young :
    (run .eraYoungClear (withTap { State.reset.tap with timebase := 2000 } inRun)).tap.eraYoung = false
    ∧ (run .eraYoungClear (withTap { State.reset.tap with timebase := 1999 } inRun)).tap.eraYoung = true := by
  decide +kernel

/-- R22: SYNC empties the log and keeps the identity. -/
theorem test_sync : (run .sync (withTap tap27 inRun)).tap.log = []
    ∧ (run .sync (withTap tap27 inRun)).tap.current = some lens4121 := by decide +kernel

/-- Section 2.7, event 1: the log's newest sample is (1,000,000, 2400). -/
theorem test_position_report :
    (run (.lensMessage (line event1Bytes)) (withTap { tap27 with timebase := 1000300 } inRun)).tap.log
    = [{ stamp := 996000, focal := 2380 }, { stamp := 1000000, focal := 2400 }] := by decide +kernel

/-- R22: a SYNC within event 1 discards it at the close of its run, in a later command. -/
theorem test_sync_within_a_message :
    let s := run .sync (run (.lensMessage ((line event1Bytes).take 9)) (withTap tap27 inRun))
    let t := run (.lensMessage ((line event1Bytes).drop 9)) s
    t.tap.dropped = 3 ∧ t.tap.log = [] ∧ t.tap.last = none ∧ t.tap.rx = .afterGap := by decide +kernel

/-- R24: after a low stop bit no start bit is heard until the line has returned high; the run goes on. -/
theorem test_framing_error :
    let t := run (.lensMessage [.idle 32, .start, .stop 0x6C, .start, .idle 1, .start, .stop 0x119]) inRun
    t.tap.rx.run = some { bytes := [⟨0x6C, 0⟩, ⟨0x119, 0⟩], crossedSync := false } ∧ t.tap.rx.phase = .idle := by
  decide +kernel

/-- Section 2.7, event 8: 3305 is 0x0CE9, 700 is 0x02BC, sequence 6; the seven bytes sum to 565, so the check byte is
202. Current (3305, 0), epoch 4, one sample, LENS_CHANGE latched. -/
theorem test_confirmation :
    let t := run (.lensMessage (line [0x6C, 0xE9, 0x0C, 0x10, 0xBC, 0x02, 6, 202]))
      (withTap { tap27 with timebase := 1502300, candidate := some lens3305 } inRun)
    t.tap.log = [{ stamp := 1502000, focal := 700 }] ∧ t.tap.current = some lens3305 ∧ t.tap.epoch = 4
      ∧ t.sig.latches.lensChange = true ∧ t.report.pending = true := by decide +kernel

/-- Section 2.7: the lookups after events 3, 5, 6 and 8. -/
theorem test_lookups :
    let after3 := { tap27 with log := [{ stamp := 1000000, focal := 2400 }, { stamp := 1004000, focal := 2480 }] }
    let after5 := { tap27 with log := [{ stamp := 1004000, focal := 2480 }, { stamp := 1012000, focal := 2500 }] }
    after3.lookup 0 1002500 = { status := .between, focal := 2450, ident := lens4121 }
    ∧ after3.lookup 0 1004000 = { status := .exact, focal := 2480, ident := lens4121 }
    ∧ after5.lookup 0 1030000 = { status := .held, focal := 2500, ident := lens4121 }
    ∧ after5.lookup 0 1060000 = { status := .stale, focal := 2500, ident := lens4121 }
    ∧ (after5.lookup 0 1003999).status = .missing := by decide +kernel

/-- R42: one sample and a stamp 2^31 microseconds from it, earlier than it by neither difference and later by neither.
-/
theorem test_lookup_opposite (n : Nat) :
    let found := ({ tap27 with log := [⟨1000000, 2400⟩] } : Tap).lookup n (1000000 + 0x80000000)
    found.status ≠ .between ∧ found.status ≠ .exact ∧ found.focal = 2400 := by
  have h : ({ tap27 with log := [⟨1000000, 2400⟩] } : Tap).lookup n (1000000 + 0x80000000)
      = { status := freeStatus false n, ident := lens4121
          focal := if freeStatus false n = .between then freeFocal n else 2400 } := rfl
  obtain ⟨h1, h2⟩ := freeStatus_spec false n
  have h3 : freeStatus false n ≠ .between := fun h => nomatch h2 h
  rw [h]
  exact ⟨h3, h1, if_neg h3⟩

/-- R42, R43: a log that goes round the 2^32 stamps. Two samples at stamp 0 agree on 2400, and a stamp that is neither
later than the oldest nor later than the newest has one pair around it. -/
theorem test_lookup_around (n : Nat) :
    ({ tap27 with log := [⟨0, 2400⟩, ⟨0x60000000, 2500⟩, ⟨0xC0000000, 2600⟩, ⟨0, 2400⟩] } : Tap).lookup n 0
      = { status := .exact, focal := 2400, ident := lens4121 }
    ∧ betweenFocal [⟨0, 2400⟩, ⟨0x70000000, 2400⟩, ⟨0xC0000000, 2480⟩] n 0x80000000 = 2416 := by
  obtain ⟨x, hx, he⟩ := freeMember_spec n (l := [(⟨0, 2400⟩ : Sample), ⟨0, 2400⟩]) (by simp)
  obtain rfl : x = ⟨0, 2400⟩ := by simpa using hx
  constructor
  · have h : ({ tap27 with log := [⟨0, 2400⟩, ⟨0x60000000, 2500⟩, ⟨0xC0000000, 2600⟩, ⟨0, 2400⟩] } : Tap).log.filter
        (fun x => x.stamp = 0) = [⟨0, 2400⟩, ⟨0, 2400⟩] := by decide +kernel
    unfold Tap.lookup
    rw [h, he]
    rfl
  · have h : straddling [⟨0, 2400⟩, ⟨0x70000000, 2400⟩, ⟨0xC0000000, 2480⟩] 0x80000000
        = [(⟨0x70000000, 2400⟩, ⟨0xC0000000, 2480⟩)] := by decide +kernel
    rw [betweenFocal, h, freeMember_one]
    show interpolate ⟨0x70000000, 2400⟩ ⟨0xC0000000, 2480⟩ 0x80000000 = 2416
    decide +kernel

/-- Section 2.7: 2585, 2597 and 2577 between 2600 and 2555. -/
theorem test_interpolation :
    let a : Sample := { stamp := 2000000, focal := 2600 }
    let b : Sample := { stamp := 2003000, focal := 2555 }
    interpolate a b 2001000 = 2585 ∧ interpolate a b 2000200 = 2597 ∧ interpolate a b 2001500 = 2577 := by
  decide +kernel

/-- Section 2.7, event 6: the quiet condition starts 40,000 µs after the last message. -/
theorem test_quiet_timer :
    let t := run .quietTimerExpiry (withTap { tap27 with quietTimer := 40000 } inRun)
    t.tap.quiet = true ∧ t.sig.latches.lensQuiet = true ∧ t.report.pending = true := by decide +kernel

/-- Section 8.4, event 1: 100 °C is code 140, which starts the warning condition; FAULT with the mask on. -/
theorem test_warning :
    let t := run (.temperatureSample 100999)
      { inRun with sig := { inRun.sig with mask := { inRun.sig.mask with heatWarn := true } } }
    t.thermal = { code := 140, warning := true, shutdown := false } ∧ t.sig.latches.heatWarn = true
      ∧ t.sig.flags.fault = true ∧ t.win.state = .run := by decide +kernel

/-- Section 8.4, events 5 and 7: code 158 enters HOT, code 144 returns to RUN with the warning condition present. -/
theorem test_shutdown :
    (run (.temperatureSample 118000) inRun).win.state = .hot
    ∧ (let t := run (.temperatureSample 104000)
        { inRun with
          win := { inRun.win with state := .hot }, thermal := { code := 160, warning := true, shutdown := true } }
      t.win.state = .run ∧ t.thermal = { code := 144, warning := true, shutdown := false }) := by decide +kernel

/-- R160: the return to RUN picks at once. -/
theorem test_pick_at_return :
    (run (.temperatureSample 104000) { working .free [entry 40 false .waiting 0] with
      win := { inRun.win with state := .hot }, thermal := { code := 160, warning := true, shutdown := true } }).work.map
        Entry.state = [.running] := by decide +kernel

/-- R137: bits 0, 1 and 2 of the mask acknowledge DONE, RUSH and FAULT. -/
theorem test_ack :
    (run (.ack 0b00111) { inRun with sig := { inRun.sig with
      flags := { done := true, rush := true, fault := true, error := true, cancel := true } } }).sig.flags
    = { done := false, rush := false, fault := false, error := true, cancel := true } := by decide +kernel

/-- Section 7.8, event 7: the lens-change latch clears, the warning latch survives. -/
theorem test_clear_faults :
    (run .clearFaults { inRun with sig := { inRun.sig with
      latches := { inRun.sig.latches with lensChange := true, heatWarn := true }
      live := { inRun.sig.live with warning := true } } }).sig.latches
    = { lensQuiet := false, lensChange := false, heatWarn := true, heatShutdown := false, memory := false } := by
  decide +kernel

/-- R152: ERROR_CLEAR clears the code and leaves ERROR set. -/
theorem test_error_clear :
    (run .errorClear (inRun.withError .postRange)).sig.firstError = none
    ∧ (run .errorClear (inRun.withError .postRange)).sig.flags.error = true := by decide +kernel

theorem test_irq_enable : (run (.irqEnableUpdate true true) inRun).sig.irqEnable = true
    ∧ (run (.irqEnableUpdate false true) inRun).sig.irqEnable = false := by decide +kernel

/-- Section 5.8, the cancel at event 3: 40, 41, 42 and 44 are handed on in intake order, 43 runs on. -/
theorem test_cancel :
    (run .cancel (working (.band [] 0 []) [entry 40 false .parked 31, entry 41 false .waiting 0,
      entry 42 false .waiting 0, entry 43 true .running 0, entry 44 true .waiting 0])).writer.waiting
    = [.entry 40 .cancelled, .entry 41 .cancelled, .entry 42 .cancelled, .entry 44 .cancelled] := by decide +kernel

theorem test_run_request : (run .modeRun State.reset).win.setupRead = true
    ∧ (run .modeRun inRun).sig.firstError = some .modeState := by decide +kernel

theorem test_reopen : (run .modeReopen inRun).win.state = .setup
    ∧ (run .modeReopen { inRun with report := { inRun.report with writing := true } }).sig.firstError
      = some .reopenBusy := by decide +kernel

/-- R171: a soft reset keeps the tap and turns LOADING slots EMPTY. -/
theorem test_soft_reset :
    let t := run .softReset (withTap tap27 { inRun with slots := inRun.slots.set 2 .loading })
    t.win.state = .setup ∧ t.tap = tap27 ∧ t.slots = State.reset.slots := by decide +kernel

/-- Section 6.10, events 1 and 2: with retired 65,530 and taken 65,534, POST 59 is refused and 58 accepted. -/
theorem test_post :
    let s := { inRun with intake := { inRun.intake with retired := 65530, taken := 65534 } }
    (run (.postWrite 59) s).sig.firstError = some .postRange ∧ (run (.postWrite 58) s).win.post = 58
      ∧ (run (.postWrite 58) s).sig.firstError = none := by decide +kernel

theorem test_xbase : (run (.xbaseWrite 0x5000) State.reset).win.xbase = 0x5000
    ∧ (run (.xbaseWrite 0x5004) State.reset).sig.firstError = some .xbaseAlign
    ∧ (run (.xbaseWrite 0x5004) inRun).sig.firstError = some .xbaseLocked := by decide +kernel

theorem test_other_write : run (.otherRegisterWrite 0x0C 4 0xFFFFFFFF) inRun = inRun := by decide +kernel

/-- R164, R165: a valid setup block enters RUN with its parameters and options. -/
theorem test_run_entry :
    let t := run (.setupReadReturn 7 (setupBytes 1)) readingSetup
    t.win.state = .run ∧ t.win.locked = some { wf := 8192, hf := 5456, low := 0x10000, high := 0x20000 }
      ∧ t.tap.latency = 300 ∧ t.tap.quietMs = 40 ∧ t.sig.grouping = 4 ∧ t.sig.missing = .refuse ∧ t.sig.stale = .pass
      ∧ t.sig.mask = { lensQuiet := true, lensChange := true, heatWarn := true } := by decide +kernel

/-- R106: another layout is no valid setup block. -/
theorem test_setup_invalid : (run (.setupReadReturn 7 (setupBytes 2)) readingSetup).sig.firstError = some .setupInvalid
    ∧ (run (.setupReadReturn 7 (setupBytes 2)) readingSetup).win.setupRead = false := by decide +kernel

theorem test_setup_fault : (run (.setupReadFault 7) readingSetup).sig.firstError = some .setupReadFault := by
  decide +kernel

/-- R105, R112: docket 65,534 lies in strip slot 62 and its first 128 bytes are read. -/
theorem test_take_docket :
    let t := run .takeDocket { inRun with
      win := { inRun.win with post := 0 }, intake := { inRun.intake with retired := 65530, taken := 65534 } }
    t.port.reqs = [{ tag := 0, use := .docket, access := .read (4096 + 256 * 62) 128, live := true }]
      ∧ t.intake.taken = 65535 := by decide +kernel

/-- R115: a white level of 0 is refused; a frame that passes is resolved into an entry. -/
theorem test_frame_docket :
    (run (.frameDocket 7 (frameBytes 0 0 1500)) (readingDocket wideRun)).writer.waiting.length = 1
    ∧ (run (.frameDocket 7 (frameBytes 1023 0 1500)) (readingDocket (withProfile wideRun))).work.map
        (fun e => (e.result, e.rush))
      = [({ ident := some lens4121, focal := 1500, slot := some 4, stations := some (0, 1), weight := 128 }, true)]
    := by decide +kernel

/-- R7: slot field 15 takes the lowest EMPTY slot. -/
theorem test_install_docket :
    (installReturned (record [(0, 1, 2), (16, 1, 15), (20, 4, 0x100), (24, 2, 148)]) 0
      { inRun with slots := inRun.slots.set 0 (.ready profile) }).slots[1]? = some .loading := by
  rw [installReturned_ok (i := 1) (by decide +kernel), State.readMore_slots]
  decide +kernel

theorem test_drop :
    let t := run (.dropDocket 7 (record [(0, 1, 3), (16, 1, 4)])) (readingDocket (withProfile inRun))
    t.slots = State.reset.slots ∧ t.writer.waiting.length = 1 := by decide +kernel

/-- Section 1.6, docket A: trims (1000, −20, 230) and NUDGE +40, +10, +40 give (1023, −10, 255). -/
theorem test_nudge :
    (run (.trimNudge 7 (record [(0, 1, 4), (16, 1, 4), (18, 2, 40), (20, 2, 10), (22, 2, 40)]))
      (readingDocket (withProfile inRun))).slots[4]?
    = some (.ready { profile with trims := { x := 1023, y := -10, scale := 255 } }) := by decide +kernel

/-- Section 1.6, docket B: a step of −70 (65466) refuses the whole docket. -/
theorem test_nudge_refused :
    (run (.trimNudge 7 (record [(0, 1, 4), (16, 1, 4), (18, 2, 64), (20, 2, 0), (22, 2, 65466)]))
      (readingDocket (withProfile inRun))).slots[4]? = some (.ready profile) := by decide +kernel

/-- Section 1.6, docket C: SET −2000 (63536), 5, 0 gives (−1023, 5, 0). -/
theorem test_set :
    (run (.trimSet 7 (record [(0, 1, 4), (16, 1, 4), (17, 1, 1), (18, 2, 63536), (20, 2, 5), (22, 2, 0)]))
      (readingDocket (withProfile inRun))).slots[4]?
    = some (.ready { profile with trims := { x := -1023, y := 5, scale := 0 } }) := by decide +kernel

theorem test_bad_mode :
    (run (.badTrimMode 7 (record [(0, 1, 4), (16, 1, 4), (17, 1, 2)])) (readingDocket (withProfile inRun))).slots
    = (withProfile inRun).slots := by decide +kernel

/-- Section 7.7, event 4: GROUPING 2 with the counter at 2 sets DONE and returns the counter to 0. -/
theorem test_options :
    let t := run (.optionsDocket 7 (record [(0, 1, 5), (16, 1, 1), (17, 1, 2)]))
      (readingDocket { inRun with sig := { inRun.sig with grouping := 4, counter := 2 } })
    t.sig.grouping = 2 ∧ t.sig.counter = 0 ∧ t.sig.flags.done = true := by decide +kernel

/-- Section 7.7: with GROUPING 3 the docket is refused, N becomes 0 and the counter sets DONE. -/
theorem test_options_refused :
    let t := run (.optionsDocket 7 (record [(0, 1, 5), (16, 1, 1), (17, 1, 3)]))
      (readingDocket { inRun with sig := { inRun.sig with grouping := 4, counter := 2 } })
    t.sig.grouping = 0 ∧ t.sig.counter = 0 ∧ t.sig.flags.done = true := by decide +kernel

theorem test_bad_kind :
    (run (.badKindDocket 7 (record [(0, 1, 6)])) (readingDocket inRun)).writer.waiting
    = [.intake { seq := 0, kind := 6, rush := false, outcome := .refused, reason := some .badKind, notes := none
                 results := [] }] := by decide +kernel

/-- Section 1.6: the image of three stations with 5, 6 and 4 knots, with its default scale trim, the u of knot 3 of
station 1 and the red delta of knot 0 of station 2 as given. -/
def image16 (scale : Int) (u : Nat) (red : Int) : List Byte :=
  imageBytes
    { ident := lens4121, trims := { x := 0, y := 0, scale }
      stations :=
        [ { focal := 1400, knots := [0, 1000, 2000, 3000, 4000].map fun u => { u, val := grey 0 } },
          { focal := 2000, knots := [0, 1000, 2000, u, 4000, 5000].map fun u => { u, val := grey 0 } },
          { focal := 3000, knots := { u := 0, val := { r := red, g := 0, b := 0 } }
              :: [1000, 2000, 3000].map fun u => { u, val := grey 0 } } ] }

/-- Section 1.6, attempts 1 to 6. -/
theorem test_image_checks :
    (image16 300 2000 (-17000)).length = 148
    ∧ imageViolation (image16 300 2000 (-17000)) = some { reason := .trimRange, station := none, knot := none }
    ∧ imageViolation (image16 30 2000 (-17000)) = some { reason := .knotOrder, station := some 1, knot := some 3 }
    ∧ imageViolation (image16 30 3000 (-17000)) = some { reason := .valueRange, station := some 2, knot := some 0 }
    ∧ imageViolation ((image16 30 3000 0).take 140) = some { reason := .imageLength, station := some 2, knot := none }
    ∧ imageViolation (image16 30 3000 0 ++ [0, 0, 0, 0])
      = some { reason := .imageLength, station := none, knot := none }
    ∧ imageViolation (image16 30 3000 0) = none := by decide +kernel

/-- A part that reads an image of `length` bytes for slot 9. -/
def installing (length : Nat) (s : State) : State :=
  waitsFor (.image 0) (.read 256 length)
    { s with slots := s.slots.set 9 .loading
             intake := { s.intake with install := true, phase := .executing 0 9 (List.replicate length 0) [] } }

/-- The same image of 148 bytes read by two reads, the second of 48 bytes. -/
def installingTwo : State :=
  let s := installing 148 inRun
  { s with port := { reqs := [⟨7, .image 0, .read 256 100, true⟩, ⟨8, .image 100, .read 356 48, true⟩], nextTag := 9 } }

/-- Section 1.6, attempt 6: the slot is READY with (4121, 1). -/
theorem test_install_done :
    (run (.installValidation 7 (image16 30 3000 0)) (installing 148 inRun)).slots[9]?
    = some (.ready (imageProfile (image16 30 3000 0))) := by decide +kernel

/-- Section 1.6, the seventh INSTALL: DUPLICATE_LENS, slot 9 ends EMPTY. -/
theorem test_install_duplicate :
    let t := run (.installValidation 7 (image16 30 3000 0)) (installing 148 (withProfile inRun))
    t.slots = (withProfile inRun).slots
      ∧ t.writer.waiting = [.intake { seq := 0, kind := 2, rush := false, outcome := .refused
                                      reason := some .duplicateLens, notes := none
                                      results := [(128, [9, 0xFF, 0xFF])] }] := by decide +kernel

theorem test_image_fault :
    let t := run (.imageReadFault 7) (installing 148 inRun)
    t.slots = State.reset.slots ∧ t.sig.latches.memory = true ∧ t.sig.flags.fault = true := by decide +kernel

/-- R9: validation begins once the last byte has arrived, whichever read brings it. -/
theorem test_image_in_two_reads :
    let image := image16 30 3000 0
    let s := run (.installValidation 8 (image.drop 100)) installingTwo
    s.slots[9]? = some .loading
    ∧ (run (.installValidation 7 (image.take 100)) s).slots[9]? = some (.ready (imageProfile image)) := by
  decide +kernel

/-- R9: a bus error on one read ends the install, and what another returns afterwards is discarded. -/
theorem test_image_fault_of_two :
    let s := run (.imageReadFault 7) installingTwo
    s.writer.waiting.length = 1
    ∧ run (.installValidation 8 ((image16 30 3000 0).drop 100)) s
      = { s with port := { reqs := [], nextTag := 9 } } := by
  decide +kernel

/-- R117: the frame in PLACE is resolved once the list has a place. -/
theorem test_resolve_frame :
    let s := { withProfile wideRun with
      intake := { inRun.intake with phase := .place 3 (frame 1500) },
        work := List.replicate 8 (entry 1 false .waiting 0) }
    run .resolveFrame s = s ∧ (run .resolveFrame { s with work := s.work.tail }).work.length = 8 := by decide +kernel

/-- Section 3.8: F = 2450 between stations at 2000 and 3000 gives w = 115; 1200 is clamped; 3000 uses station 2. -/
theorem test_stations :
    let stations := [ramp 1400 0, ramp 2000 0, ramp 3000 0]
    chooseStations 2450 stations = { lower := 1, upper := 2, weight := 115, clamped := false }
    ∧ chooseStations 1200 stations = { lower := 0, upper := 0, weight := 0, clamped := true }
    ∧ chooseStations 3000 stations = { lower := 2, upper := 2, weight := 0, clamped := false }
    ∧ (chooseStations 2003 stations).weight = 0 := by decide +kernel

/-- Section 3.8, green and red of station 1 at points 15, 16 and 48, and the blends of point 15. -/
theorem test_curve_values :
    let knots := [(1536, -900, -880), (2560, -1400, -1320), (8192, -3000, -3000)].map
      fun (k : Nat × Int × Int) => ({ u := k.1, val := { r := k.2.2, g := k.2.1, b := 0 } } : Knot)
    evalKnots .green knots 1920 = -1088 ∧ evalKnots .green knots 2048 = -1150 ∧ evalKnots .red knots 2048 = -1100
      ∧ evalKnots .green knots 6144 = -2418 ∧ evalKnots .green knots 8192 = -3000
      ∧ -1088 + nearestAway ((-1125 - -1088) * 115) 256 = -1105
      ∧ -3000 + nearestAway ((-3600 - -3000) * 115) 256 = -3270 := by decide +kernel

/-- Section 4.7: the green and red samples of output pixel (7000, 4600). -/
theorem test_output_pixel :
    let curve := fun (a b : Int) => List.replicate 15 0 ++ [a, b] ++ List.replicate 48 0
    let e := { entry 0 false .running 0 with
      curve := { r := curve (-1180) (-1290), g := curve (-1200) (-1312), b := curve 0 0 }, wl := 16383
      geo := { smallGeometry with w := 8192, h := 5456 } }
    let p : Params := { wf := 8192, hf := 5464, low := 0, high := 0 }
    let green := fun x y => if y = 4563 then (if x = 6943 then 2000 else 2016) else if x = 6943 then 2080 else 2096
    let red := fun x (_ : Nat) => if x = 6944 then 1900 else 1910
    sourcePos e p .green 7000 4600 = (111090, 73015) ∧ outSample e p .green green 7000 4600 = 2037
      ∧ sourcePos e p .red 7000 4600 = (111105, 73024) ∧ outSample e p .red red 7000 4600 = 1901 := by decide +kernel

/-- Section 5.8, event 6: the PARKED entry wins over the WAITING BURST entries. -/
theorem test_pick :
    (run .pick (working .free [entry 40 false .parked 1, entry 41 false .waiting 0])).work.map Entry.state
    = [.running, .waiting] := by decide +kernel

/-- Section 5.8, event 2: entry 40 is PARKED with its note and its next band, entry 43 is RUNNING. -/
theorem test_park :
    let t := run (.bandWriteAck 7) (lastWrite 0 [entry 41 false .waiting 0, entry 43 true .waiting 1])
    t.work.map (fun e => (e.state, e.nextBand)) = [(.parked, 1), (.waiting, 0), (.running, 1)]
      ∧ t.work.map (fun e => hasNote e.notes .parked) = [true, false, false] := by decide +kernel

/-- R89: the frame's last band leads to OUTCOME. -/
theorem test_last_band : (run (.bandWriteAck 7) (lastWrite 1 [])).writer.waiting = [.entry 40 .finished] := by
  decide +kernel

/-- R78: a read returns into the band cache while another is outstanding. -/
theorem test_band_read :
    (run (.bandReadReturn 7 (List.replicate 32 1)) (alsoWaitsFor (.bandRead .red 32) (.read 2048 32)
      (waitsFor (.bandRead .blue 32) (.read 10240 32) (working (.band [] 0 []) [entry 40 false .running 1])))).engine
    = .band [{ channel := .blue, row := 32, samples := List.replicate 16 0x0101 }] 0 [] := by decide +kernel

/-- R79: the output writes of a band of one row, one of each channel. -/
theorem test_band_writes : (bandWrites (entry 40 false .running 1) inRun.params [] 1).map Prod.fst
    = [.bandWrite .red 32, .bandWrite .green 32, .bandWrite .blue 32] := by decide +kernel

theorem test_band_bus_error :
    let t := run (.bandBusError 7) (lastWrite 0 [])
    t.engine = .outcome ∧ t.writer.waiting = [.entry 40 (.abandoned .memoryFault)] ∧ t.sig.latches.memory = true := by
  decide +kernel

/-- R80: a failed write with others not yet issued: they are not issued. -/
theorem test_unissued_writes :
    let t := run (.bandBusError 7) { lastWrite 0 [] with engine := .band [] 0 [(.bandWrite .red 1, .write [])] }
    t.engine = .outcome ∧ t.port.reqs = [] := by decide +kernel

/-- R80, R126: a docket read that times out halts the part. -/
theorem test_timeout :
    let t := run (.memoryRequestTimeout 7) (readingDocket inRun)
    t.win.state = .halted ∧ t.sig.firstError = some .exchangeFault ∧ t.sig.flags.error = true := by decide +kernel

theorem test_drain_end :
    (run .drainEnd (working (.drain (.abandoned .overheat)) [entry 74 true .running 0])).writer.waiting
    = [.entry 74 (.abandoned .overheat)] := by decide +kernel

/-- The refusal of docket 1 taken up, and the acknowledgement of its first write. -/
def refusing : State :=
  run .outcomeTakeUp { inRun with writer := { inHand := none, waiting := [.intake
    { answer 1 with outcome := .refused, reason := some .badSlot, notes := none
                    results := [(128, [0xFF, 0xFF, 0xFF])] }] } }

/-- R118: reason and notes, result fields, outcome byte, in this order, at docket 1's place in the strip. -/
theorem test_answer_writes :
    let s := run (.outcomeWriteAck 0) refusing
    let t := run (.outcomeWriteAck 1) s
    [refusing, s, t].map (fun u => u.port.reqs.map (fun r => r.access))
      = [[.write [(4357, [1])]], [.write [(4480, [0xFF, 0xFF, 0xFF])]], [.write [(4356, [3])]]] := by decide +kernel

/-- R98: a bus error on the write of the result fields enters HALTED, and the docket gets no outcome. -/
theorem test_answer_fault :
    let t := run (.exchangeFault 1) (run (.outcomeWriteAck 0) refusing)
    t.win.state = .halted ∧ t.port.reqs = [] ∧ t.writer.inHand = none := by decide +kernel

/-- Section 6.10, event 5: docket 65,531 answered with 65,532 already answered moves the retired count to 65,533. -/
theorem test_outcome_ack :
    let t := run (.outcomeWriteAck 7) (waitsFor (.answer .outcome) (.write [])
      (inHand { answer := answer 65531, ofEntry := false, stage := .writing, metPost := false, unissued := [] }
        { inRun with intake := { inRun.intake with
          retired := 65531, taken := 65534, map := (1 <<< 58) ||| (1 <<< 60) } }))
    t.intake.retired = 65533 ∧ t.report.pending = true := by decide +kernel

/-- R123: the sequence number advances and opens and closes the block. -/
theorem test_report_take_up :
    let t := run .reportWriteTakeUp { inRun with report := { seq := 0x01FF, writing := false, pending := true } }
    t.report = { seq := 0x0200, writing := true, pending := false }
      ∧ t.port.reqs.map (fun r => r.access) = [.write [(256, [0x00, 0x02])], .write [(258, reportBody inRun)],
        .write [(508, [0x00, 0x02, 0, 0])]] := by decide +kernel

theorem test_report_ack :
    let t := run (.reportWriteAck 7) (waitsFor (.report .trailing) (.write [])
      (inHand { answer := answer 1, ofEntry := false, stage := .reportCarried, metPost := false, unissued := [] }
        { inRun with report := { seq := 1, writing := true, pending := false } }))
    t.report.writing = false ∧ t.writer.inHand.map InHand.stage = some .update := by decide +kernel

/-- Section 7.7, event 7: the counter reaches 1 and the idle flush announces it. -/
theorem test_signalling_update :
    let t := run .signallingUpdate (inHand ⟨answer 15, true, .update, false, []⟩
      { inRun with sig := { inRun.sig with grouping := 2 } })
    t.sig.counter = 0 ∧ t.sig.flags.done = true ∧ t.writer.inHand = none := by decide +kernel

/-- R122: a retire check that met POST gives the flush, though POST has moved on since. -/
theorem test_met_post :
    let t := run .signallingUpdate (inHand ⟨answer 15, true, .update, true, []⟩
      { inRun with win := { inRun.win with post := 9 }, sig := { inRun.sig with grouping := 2 } })
    t.sig.counter = 0 ∧ t.sig.flags.done = true := by decide +kernel

/-- R126, R127: an exchange fault keeps the counts and empties the list. -/
theorem test_exchange_fault :
    let t := run (.exchangeFault 7) (waitsFor (.report .body) (.write []) (working .free [entry 1 false .waiting 0]))
    t.win.state = .halted ∧ t.work = [] ∧ t.intake.taken = inRun.intake.taken := by decide +kernel

theorem test_mark_docket :
    let t := run .markDocket { inRun with win := { inRun.win with
      post := 3, cancel := some { boundary := 3, stage := .working } } }
    t.intake.taken = 1 ∧ t.intake.phase = .writing ∧ t.writer.waiting.length = 1 := by decide +kernel

theorem test_cancel_complete :
    let t := run .cancelComplete
      { inRun with win := { inRun.win with cancel := some { boundary := 3, stage := .reported } } }
    t.win.cancel = none ∧ t.sig.flags.cancel = true := by decide +kernel

/-- R128, R153: the STATUS picture in HOT with DONE pending, HEAT_WARN latched, code 158 and error POST_RANGE. -/
theorem test_status :
    readRegister { inRun with
      win := { inRun.win with state := .hot }, thermal := { code := 158, warning := true, shutdown := true }
      sig := { inRun.sig with
        flags := { inRun.sig.flags with done := true }, latches := { inRun.sig.latches with heatWarn := true }
        firstError := some .postRange } } 0x0C = 0x029E040A ∧ readRegister inRun 0x00 = 0x72140001 := by decide +kernel

/-! ### Witnesses: states and operands that meet the statements' hypotheses

`witness_<Name>` goes with `Obligations.<Name>`; a statement without hypotheses needs none. -/

theorem forall_channel {p : Channel → Prop} : (∀ c, p c) ↔ p .red ∧ p .green ∧ p .blue :=
  ⟨fun h => ⟨h _, h _, h _⟩, fun h c => by cases c <;> simp [h]⟩

theorem witness_StepRunsFrontCommand : ({ inRun with pending := [.pick, .tick] } : State).pending = .pick :: [.tick]
    ∧ inRun.pending = [] := by decide

/-- A table with a READY slot, an EMPTY slot and a LOADING slot before a soft reset. -/
theorem witness_SoftResetState : ∃ s : State, s.slots[4]? = some (.ready profile) ∧ s.slots[5]? = some .loading
    ∧ s.slots[11]? = some .empty :=
  ⟨{ withProfile inRun with slots := (withProfile inRun).slots.set 5 .loading }, by decide +kernel⟩

/-- A docket reply after a soft reset, and after an exchange fault on another request. -/
theorem witness_OldRepliesChangeNothing :
    exec .softReset (readingDocket inRun) = .next (run .softReset (readingDocket inRun))
    ∧ (let s := alsoWaitsFor (.report .body) (.write []) (readingDocket inRun)
      exec (.exchangeFault 9) s = .next (run (.exchangeFault 9) s) ∧ s.win.state ≠ .halted
        ∧ (run (.exchangeFault 9) s).win.state = .halted ∧ (run (.exchangeFault 9) s).port.reqs ≠ [])
    ∧ replyTag (.frameDocket 7 (frameBytes 1023 0 1500)) = some 7 :=
  ⟨rfl, ⟨rfl, by decide +kernel⟩, rfl⟩

/-- Timebase 2000 and 1999; with Q = 40 ms, quiet timers 40,000 and 39,999 and a quiet condition that stands. -/
theorem witness_TimeCommands :
    2000 ≤ ({ tap27 with timebase := 2000 } : Tap).timebase.toNat
    ∧ ({ tap27 with timebase := 1999 } : Tap).timebase.toNat < 2000
    ∧ (let t := { tap27 with quietTimer := 40000 }; t.quiet = false ∧ t.quietMs * 1000 ≤ t.quietTimer)
    ∧ (let t := { tap27 with quietTimer := 39999 }; t.quietTimer < t.quietMs * 1000)
    ∧ ({ tap27 with quiet := true } : Tap).quiet = true := by decide

/-- Any run may be in progress, closed by the 32nd bit time of idle line, after a low stop bit too, and by no earlier
one. -/
theorem witness_closes (run : Run) :
    (after run).closes run 32 ∧ { after run with idleBits := 1 }.closes run 31
      ∧ { after run with phase := .heldLow }.closes run 32
    ∧ ¬ (after run).closes run 31 := by
  simp [Receiver.closes, after]

/-- Runs, which `witness_closes` closes, for each of the seven checks, both bad model codes and the report of focal
length 0 included. -/
theorem witness_LensRunDiscarded :
    ({ event1 0 with crossedSync := true } : Run).crossedSync = true
    ∧ (∃ b ∈ [(⟨0x6C, 0⟩ : HeardByte)], b.samples.getLsbD 8 = false)
    ∧ (heard [0x6C, 0x19, 0x10, 0x11, 0x60, 0x09, 17] 0).bytes.length ≠ 8
    ∧ heardAt (heard [0x6D, 0x19, 0x10, 0x11, 0x60, 0x09, 17, 222] 0) 0 ≠ 0x6C
    ∧ ((heard [0x6C, 0x19, 0x10, 0x11, 0x60, 0x09, 17, 222] 0).bytes.map fun b => (heardValue b).toNat).sum % 256 ≠ 255
    ∧ (let r := heard [0x6C, 0, 0, 0x11, 0x60, 0x09, 17, 0] 0; heardAt r 1 + 256 * heardAt r 2 = 0)
    ∧ (let r := heard [0x6C, 0xFF, 0xFF, 0x11, 0x60, 0x09, 17, 0] 0; heardAt r 1 + 256 * heardAt r 2 = 65535)
    ∧ (let r := heard [0x6C, 0x19, 0x10, 0x11, 0, 0, 17, 72] 0
      heardAt r 3 / 16 = 1 ∧ heardAt r 4 + 256 * heardAt r 5 = 0) := by decide +kernel

/-- The receiver idle after a whole gap and after none, within a byte, after a low stop bit; idle line of 31 and of 32
bit times; the least and the greatest identity, kind, focal length and sequence number. -/
theorem witness_LensMessageBytesAccepted :
    exec (.lensMessage []) inRun = .next inRun
    ∧ (Receiver.afterGap.phase = .idle ∧ Receiver.afterGap.idleBits = 32 ∧ (after (event1 0)).phase = .idle
      ∧ (after (event1 0)).idleBits + 31 < 32 ∧ Receiver.reset.run = none ∧ 32 ≤ Receiver.reset.idleBits + 32)
    ∧ ({ after (event1 0) with phase := .inByte }.phase = .inByte
    ∧ { after (event1 0) with phase := .heldLow }.phase ≠ .inByte)
    ∧ (∀ id ∈ [({ model := 1, ext := 0 } : LensId), { model := 65534, ext := 15 }], IdentOk id)
    ∧ (let run := heard ((lensBytes ⟨65534, 15⟩ 15 65535 255).map BitVec.toNat) 9
      run.crossedSync = false ∧ (∀ b ∈ run.bytes, b.samples.getLsbD 8 = true)
        ∧ run.bytes.map heardValue = lensBytes ⟨65534, 15⟩ 15 65535 255
        ∧ (run.bytes.getLast?.map (·.stopTime)) = some 9)
    ∧ (let run := heard ((lensBytes ⟨1, 0⟩ 1 1 0).map BitVec.toNat) 0
      run.crossedSync = false ∧ (∀ b ∈ run.bytes, b.samples.getLsbD 8 = true)
        ∧ run.bytes.map heardValue = lensBytes ⟨1, 0⟩ 1 1 0 ∧ (run.bytes.getLast?.map (·.stopTime)) = some 0) := by
  unfold IdentOk; exact ⟨rfl, by decide +kernel⟩

/-- A duplicate of event 1, and a message of kind 2 that is none; with and without a quiet condition. -/
theorem witness_MessagesThatEndAtTheTap :
    (after (event1 5)).closes (event1 5) 32 ∧ (after (notice 5)).closes (notice 5) 32
    ∧ (acceptRun (event1 5) = some { ident := lens4121, kind := 1, focal := 2400, seq := 17, arrival := 5 }
      ∧ ({ tap27 with last := some ⟨lens4121, 1, 17⟩ } : Tap).last = some { ident := lens4121, kind := 1, seq := 17 })
    ∧ acceptRun (notice 5) = some { ident := lens4121, kind := 2, focal := 2400, seq := 17, arrival := 5 }
      ∧ tap27.last ≠ some { ident := lens4121, kind := 2, seq := 17 }
      ∧ tap27.quiet = false ∧ { tap27 with quiet := true }.quiet = true :=
  ⟨(witness_closes _).1, (witness_closes _).1, by decide +kernel⟩

/-- Event 1 before each step of the tracker; an arrival at 299 is early with L = 300, at 300 it is not; a stamp that is
the newest sample's own is refused, a full log gives one up. -/
theorem witness_TrackerSteps :
    let m := fun t => ({ ident := lens4121, kind := 1, focal := 2400, seq := 17, arrival := t } : Message)
    (∀ n, (after (event1 n)).closes (event1 n) 32)
    ∧ (acceptRun (event1 299) = some (m 299) ∧ acceptRun (event1 300) = some (m 300)
      ∧ acceptRun (event1 996300) = some (m 996300) ∧ acceptRun (event1 996301) = some (m 996301))
    ∧ (tap27.quiet = false ∧ { tap27 with quiet := true }.quiet = true ∧ tap27.log.length ≤ 64
    ∧ tap27.last ≠ some ⟨lens4121, 1, 17⟩ ∧ tap27.current = some lens4121)
    ∧ (let young := { tap27 with eraYoung := true }
      (young.eraYoung = true ∧ (299 : Stamp).toNat < young.latency) ∧ ¬ (300 : Stamp).toNat < young.latency)
    ∧ (stampDiff 996000 ((996300 : Stamp) - 300) ≤ 0 ∧ 0 < stampDiff 996000 ((996301 : Stamp) - 300))
    ∧ (List.replicate 64 (⟨0, 1⟩ : Sample)).length = 64
    ∧ (let t := { tap27 with current := none, log := [] }; t.current ≠ some lens4121 ∧ t.candidate = none)
    ∧ (let t := { tap27 with current := some lens3305, candidate := some lens4121 }
      t.current ≠ some lens4121 ∧ t.candidate = some lens4121)
    ∧ (let t := { tap27 with current := none, log := [], candidate := some lens3305 }
      t.current ≠ some lens4121 ∧ t.candidate ≠ none ∧ t.candidate ≠ some lens4121) :=
  ⟨fun _ => (witness_closes _).1, by decide +kernel⟩

/-- Two samples, Q = 40 ms: one below the oldest, each sample, between them, 40,000 and 40,001 after the newest; one
sample; and a log that goes round to a second sample of the oldest stamp. -/
theorem witness_LookupTable :
    let tap := { tap27 with log := [⟨1000000, 2400⟩, ⟨1004000, 2480⟩] }
    ({ tap27 with log := [] } : Tap).log = [] ∧ ({ tap27 with current := none } : Tap).current = none
    ∧ (let alone := { tap27 with log := [⟨1000000, 2400⟩] }
      alone.current = some lens4121 ∧ alone.log = [⟨1000000, 2400⟩])
    ∧ (tap.current = some lens4121 ∧ tap.log.head? = some ⟨1000000, 2400⟩ ∧ tap.log.getLast? = some ⟨1004000, 2480⟩)
    ∧ 0 < stampDiff 999999 1000000
    ∧ (¬ 0 < stampDiff 1000000 1000000 ∧ (⟨1000000, 2400⟩ : Sample) ∈ tap.log ∧ (⟨1004000, 2480⟩ : Sample) ∈ tap.log)
    ∧ (let round := { tap27 with log := [⟨0, 2400⟩, ⟨0x60000000, 2500⟩, ⟨0xC0000000, 2600⟩, ⟨0, 2500⟩] }
      LogOk round.log ∧ round.log.head? = some ⟨0, 2400⟩ ∧ round.log.getLast? = some ⟨0, 2500⟩
        ∧ (⟨0, 2400⟩ : Sample) ∈ round.log ∧ (⟨0, 2500⟩ : Sample) ∈ round.log)
    ∧ ((∀ x ∈ tap.log, x.stamp ≠ 1003999) ∧ 0 < stampDiff 1000000 1003999 ∧ 0 < stampDiff 1003999 1004000)
    ∧ ((∀ x ∈ tap.log, x.stamp ≠ 1044000) ∧ 0 < stampDiff 1004000 1044000
      ∧ stampDiff 1004000 1044000 ≤ tap.quietMs * 1000)
    ∧ ((∀ x ∈ tap.log, x.stamp ≠ 1044001) ∧ 0 < stampDiff 1004000 1044001
      ∧ tap.quietMs * 1000 < stampDiff 1004000 1044001) := by
  simp only [LogOk]; decide +kernel

/-- The samples and the stamp of section 2.7, across the wrap of the stamps too; and a log that goes round, with two
pairs around a stamp. -/
theorem witness_InterpolatedFocal :
    let tap := { tap27 with log := [⟨1000000, 2400⟩, ⟨1004000, 2480⟩, ⟨1012000, 65535⟩] }
    (0 < stampDiff 4294967295 0 ∧ 0 < stampDiff 0 1 ∧ 0 < stampDiff 4294967295 1)
    ∧ (tap.current = some lens4121 ∧ tap.log.head? = some ⟨1000000, 2400⟩ ∧ tap.log.getLast? = some ⟨1012000, 65535⟩)
    ∧ (0 < stampDiff 1000000 1004001 ∧ 0 < stampDiff 1004001 1012000 ∧ ∀ x ∈ tap.log, x.stamp ≠ 1004001)
    ∧ (tap.log.zip tap.log.tail).filter
        (fun p => decide (0 < stampDiff p.1.stamp 1004001) && decide (0 < stampDiff 1004001 p.2.stamp))
      = [(⟨1004000, 2480⟩, ⟨1012000, 65535⟩)]
    ∧ (LogOk tap.log ∧ ∀ n, (tap.lookup n 1004001).status = .between)
    ∧ (let round := { tap27 with
        log := [⟨0, 2400⟩, ⟨0x60000000, 2500⟩, ⟨0xC0000000, 2600⟩, ⟨0x10000000, 2700⟩, ⟨0x70000000, 2800⟩] }
      LogOk round.log ∧ (straddling round.log 0x20000000).length = 2
        ∧ ∀ n, (round.lookup n 0x20000000).status = .between) := by
  simp only [LogOk]
  refine ⟨by decide +kernel, by decide +kernel, by decide +kernel, by decide +kernel, ⟨by decide +kernel, fun _ => rfl⟩,
    by decide +kernel, by decide +kernel, fun _ => rfl⟩

theorem ramp_knots : KnotsOk (ramp 1000 0).knots ∧ KnotsOk (ramp 2000 (-3000)).knots := by
  simp only [KnotsOk, forall_channel]; decide +kernel

theorem profile_ok : ProfileOk profile := by
  refine ⟨by unfold IdentOk; decide, by decide, by decide, by decide, ?_, by unfold TrimsOk; decide⟩
  intro s hs
  have : s = ramp 1000 0 ∨ s = ramp 2000 (-3000) := by simpa [profile] using hs
  rcases this with rfl | rfl
  · exact ⟨by decide, by decide, ramp_knots.1⟩
  · exact ⟨by decide, by decide, ramp_knots.2⟩

/-- The only profile of the table of the tests. -/
theorem only_profile {s : State} (hs : s.slots = State.reset.slots) {i : Nat} {p : Profile}
    (h : (withProfile s).slots[i]? = some (.ready p)) : p = profile ∧ i = 4 := by
  rw [withProfile, hs, List.getElem?_set] at h
  by_cases hi : 4 = i
  · rw [if_pos hi, if_pos (by decide)] at h
    exact ⟨by simpa using h.symm, hi.symm⟩
  · rw [if_neg hi] at h
    have := List.mem_of_getElem? h
    simp [State.reset, Config.slotCount] at this

theorem table_ok {s : State} (hs : s.slots = State.reset.slots) : TableOk (withProfile s).slots := by
  refine ⟨by simp [withProfile, hs, State.reset, Config.slotCount], fun p hp => ?_, fun i j p q hi hj _ => ?_⟩
  · obtain ⟨i, hi⟩ := List.mem_iff_getElem?.1 hp
    exact (only_profile hs hi).1 ▸ profile_ok
  · rw [(only_profile hs hi).2, (only_profile hs hj).2]

theorem entry_ok (seq : Nat) (rush : Bool) (state : EntryState) (b : Nat) : EntryOk (entry seq rush state b) := by
  refine ⟨fun c => ?_, fun h => by cases h⟩
  have : (entry seq rush state b).curve.get c = List.replicate 65 0 := by cases c <;> rfl
  rw [this]; decide +kernel

/-- A station with knots at 0 and 8192: u at a knot, just below the last and at the last. -/
theorem witness_StationEvaluation : KnotsOk (ramp 1000 0).knots
    ∧ (ramp 1000 0).knots.getLast? = some ⟨8192, grey 0⟩
    ∧ (ramp 1000 0).knots[0]? = some ⟨0, grey 0⟩ ∧ (ramp 1000 0).knots[0 + 1]? = some ⟨8192, grey 0⟩
    ∧ (0 ≤ 0 ∧ 0 < 8192) ∧ (0 ≤ 8191 ∧ 8191 < 8192) ∧ 8192 ≤ 8192 :=
  ⟨ramp_knots.1, by decide⟩

/-- Stations at 1000 and 2000 and focal lengths 999, 1000, 1001, 1999, 2000 and 2001; one station alone. -/
theorem witness_StationsChosen :
    (profile.stations.IsChain fun a b => a.focal < b.focal) ∧ 2 ≤ profile.stations.length
    ∧ [ramp 1000 0].length = 1 ∧ ([ramp 1000 0].IsChain fun a b => a.focal < b.focal)
    ∧ (profile.stations.head? = some (ramp 1000 0) ∧ 999 < (ramp 1000 0).focal)
    ∧ (profile.stations.getLast? = some (ramp 2000 (-3000)) ∧ (ramp 2000 (-3000)).focal < 2001)
    ∧ (profile.stations[0]? = some (ramp 1000 0) ∧ 1000 = (ramp 1000 0).focal)
    ∧ (profile.stations[1]? = some (ramp 2000 (-3000)) ∧ 2000 = (ramp 2000 (-3000)).focal)
    ∧ ((ramp 1000 0).focal < 1001 ∧ 1001 < (ramp 2000 (-3000)).focal)
    ∧ ((ramp 1000 0).focal < 1999 ∧ 1999 < (ramp 2000 (-3000)).focal)
    ∧ (let ch := chooseStations 2001 profile.stations
      ch.lower = ch.upper ∧ profile.stations[ch.lower]? = some (ramp 2000 (-3000))) := by decide

theorem witness_BlendedValue : ProfileOk profile ∧ profile.stations[0]? = some (ramp 1000 0)
    ∧ profile.stations[0 + 1]? = some (ramp 2000 (-3000))
    ∧ ((ramp 1000 0).focal < 1001 ∧ 1001 < (ramp 2000 (-3000)).focal)
    ∧ ((ramp 1000 0).focal < 1999 ∧ 1999 < (ramp 2000 (-3000)).focal)
    ∧ (chooseStations 1001 profile.stations).weight = 0 :=
  ⟨profile_ok, by decide⟩

/-- A profile whose scale trim is 0, and one whose scale trim, 255, clamps a sum above a delta of 16383. -/
theorem witness_FrameCurveClamped : ProfileOk profile
    ∧ (let pr := { profile with trims := { profile.trims with scale := 0 } }; ProfileOk pr ∧ pr.trims.scale = 0)
    ∧ (let pr := { profile with stations := [ramp 1000 16383] }
      16383 < blended pr.stations (chooseStations 5 pr.stations) .red (128 * 64) + pr.trims.scale) :=
  ⟨profile_ok, ⟨⟨profile_ok.1, profile_ok.2.1, profile_ok.2.2.1, profile_ok.2.2.2.1, profile_ok.2.2.2.2.1,
    by unfold TrimsOk; decide⟩, rfl⟩, by decide +kernel⟩

/-- Both policies; a fill value above the white level, all at the white level, and a pixel that looks outside. -/
theorem witness_FillValues :
    (frame 1500).edgeField = 0
    ∧ (let f := { frame 1500 with edgeField := 2, fill := { r := 1024, g := 0, b := 1023 } }
      f.edgeField ≠ 0 ∧ f.wl < f.fill.get .red)
    ∧ (let f := { frame 1500 with edgeField := 1, fill := grey 1023 }
      f.edgeField ≠ 0 ∧ f.fill.get .red ≤ f.wl ∧ f.fill.get .green ≤ f.wl ∧ f.fill.get .blue ≤ f.wl
      ∧ (let e := makeEntry 0 f (grey (List.replicate 65 16383)) 65528 43704 0 (entry 0 false .waiting 0).result
        inside e.geo (sourcePos e wideRun.params .green 0 0) = false)) := by decide +kernel

/-- GIVEN with a bad identity, with focal length 0, with a profile, without one under either policy; TAP answered EXACT,
BETWEEN, HELD, STALE under either policy and MISSING under either policy. -/
theorem witness_FrameResolution :
    ((frame 1500).source = 1 ∧ IdentOk (frame 1500).given ∧ (frame 1500).givenFocal ≠ 0)
    ∧ (¬ IdentOk { frame 1500 with given := ⟨65535, 0⟩ }.given ∧ (frame 0).givenFocal = 0)
    ∧ (TableOk (withProfile wideRun).slots ∧ (withProfile wideRun).slots[4]? = some (.ready profile)
      ∧ profile.ident = (frame 1500).given ∧ profile.ident = lens4121)
    ∧ (∀ pr, Slot.ready pr ∈ wideRun.slots → pr.ident ≠ (frame 1500).given)
    ∧ (wideRun.sig.missing = .pass
      ∧ { wideRun with sig := { wideRun.sig with missing := .refuse } }.sig.missing = .refuse)
    ∧ (tapFrame.source = 0 ∧ (wideRun.tap.lookup 0 tapFrame.stamp).status = .missing)
    ∧ (let asked : List Sample → Lookup := fun log => ({ tap27 with log } : Tap).lookup 0 tapFrame.stamp
      asked [⟨5000, 1500⟩] = ⟨.exact, 1500, lens4121⟩ ∧ asked [⟨4000, 1500⟩, ⟨6000, 1500⟩] = ⟨.between, 1500, lens4121⟩
      ∧ asked [⟨4294932296, 1500⟩] = ⟨.held, 1500, lens4121⟩ ∧ asked [⟨4294932295, 1500⟩] = ⟨.stale, 1500, lens4121⟩)
    ∧ wideRun.sig.stale = .hold ∧ { wideRun.sig with stale := .pass }.stale = .pass := by
  refine ⟨by unfold IdentOk; decide +kernel, by unfold IdentOk; decide +kernel,
    ⟨table_ok rfl, by decide +kernel, by decide +kernel, rfl⟩, ?_, by decide, by decide +kernel, by decide +kernel⟩
  intro pr h
  simp [wideRun, State.reset, Config.slotCount] at h

/-- A frame for each failing check but the last, the checks before it holding, and one that passes those seven. -/
theorem witness_frame_checks :
    let p := wideRun.params
    let f := frame 1500
    let checks : FrameFields → List Bool := fun f =>
      let g := f.geo
      let inSize := g.inPitch * (g.h - 1) + 2 * g.w
      let outSize := g.outPitch * (g.h / g.k - 1) + 2 * (g.w / g.k)
      [decide (f.source = 0 ∨ f.source = 1),
        decide (g.w % 16 = 0 ∧ 256 ≤ g.w ∧ g.w ≤ 8192 ∧ g.h % 16 = 0 ∧ 256 ≤ g.h ∧ g.h ≤ 6144 ∧ g.ox + g.w ≤ p.wf
          ∧ g.oy + g.h ≤ p.hf),
        decide (g.k = 1 ∨ g.k = 2 ∨ g.k = 4),
        decide (g.inPitch % 64 = 0 ∧ 2 * g.w ≤ g.inPitch ∧ g.outPitch % 64 = 0 ∧ 2 * (g.w / g.k) ≤ g.outPitch),
        [Channel.red, .green, .blue].all fun c => decide (g.inAddr.get c % 64 = 0 ∧ g.outAddr.get c % 64 = 0),
        decide (f.wl ≠ 0),
        [Channel.red, .green, .blue].all fun c => decide (p.low ≤ g.inAddr.get c ∧ g.inAddr.get c + inSize ≤ p.high
          ∧ p.low ≤ g.outAddr.get c ∧ g.outAddr.get c + outSize ≤ p.high)]
    checks { f with source := 2 } = [false, true, true, true, true, true, true]
    ∧ checks { f with geo := { f.geo with w := 240 } } = [true, false, true, true, true, true, true]
    ∧ checks { f with geo := { f.geo with k := 3 } } = [true, true, false, true, true, true, true]
    ∧ checks { f with geo := { f.geo with outPitch := 448 } } = [true, true, true, false, true, true, true]
    ∧ checks { f with geo := { f.geo with inAddr := grey 32 } } = [true, true, true, true, false, true, true]
    ∧ checks { f with wl := 0 } = [true, true, true, true, true, false, true]
    ∧ checks { f with geo := { f.geo with outAddr := grey 917568 } } = [true, true, true, true, true, true, false]
    ∧ checks { f with geo := { f.geo with outAddr := grey 0 } } = [true, true, true, true, true, true, true]
    ∧ checks f = [true, true, true, true, true, true, true] := by decide +kernel

/-- The last check: the planes of `frame` share no byte, with the output right after the input; placed over it they do.
-/
theorem witness_planes_apart :
    let g := (frame 1500).geo
    (∀ (c c' : Channel) (a : Nat), g.outAddr.get c ≤ a → a < g.outAddr.get c + 131072 → g.inAddr.get c' ≤ a →
      g.inAddr.get c' + 131072 ≤ a)
    ∧ g.inPitch * (g.h - 1) + 2 * g.w = 131072 ∧ g.outPitch * (g.h / g.k - 1) + 2 * (g.w / g.k) = 131072
    ∧ ¬ ((grey 0).get Channel.red ≤ 0 → 0 < (grey 0).get Channel.red + 131072 → g.inAddr.get .red ≤ 0 →
      g.inAddr.get .red + 131072 ≤ 0) := by
  have hin : (frame 1500).geo.inAddr = grey 0 := by decide +kernel
  have hout : (frame 1500).geo.outAddr = { r := 0x20000, g := 0x40000, b := 0x60000 } := by decide +kernel
  refine ⟨fun c c' a => ?_, by decide +kernel, by decide +kernel, by rw [hin]; decide⟩
  rw [hin, hout]
  cases c <;> cases c' <;> simp only [Rgb.get, grey] <;> omega

/-- The first check that fails, a full list, a list of seven, a resolution that refuses and one that makes an entry. -/
theorem witness_FrameDocketHandled :
    (readingDocket wideRun).awaitsDocket 7 0 (frameBytes 0 0 1500) ∧ docketKind (frameBytes 0 0 1500) = 1
    ∧ firstFailure (frameChecks (readingDocket wideRun).params (frameFields (frameBytes 0 0 1500))) = some .badWhite
    ∧ (let s := readingDocket { wideRun with work := List.replicate 8 (entry 1 false .waiting 0) }
      s.awaitsDocket 7 0 (frameBytes 1023 0 1500) ∧ docketKind (frameBytes 1023 0 1500) = 1
        ∧ firstFailure (frameChecks s.params (frame 1500)) = none ∧ 8 ≤ s.work.length)
    ∧ (let s := readingDocket { wideRun with work := List.replicate 7 (entry 1 false .waiting 0) }
      s.awaitsDocket 7 0 (frameBytes 1023 0 1500) ∧ s.awaitsDocket 7 0 (frameBytes 1023 0 0)
        ∧ docketKind (frameBytes 1023 0 0) = 1
        ∧ firstFailure (frameChecks s.params (frame 1500)) = none ∧ firstFailure (frameChecks s.params (frame 0)) = none
        ∧ s.work.length < 8
        ∧ (∃ e, resolution s 0 (frame 1500) = .ok e) ∧ resolution s 0 (frame 0) = .error .badFocal) := by
  refine ⟨⟨⟨4096, rfl⟩, by decide +kernel, rfl⟩, by decide +kernel, by decide +kernel,
    ⟨⟨⟨4096, rfl⟩, by decide +kernel, rfl⟩, by decide +kernel, by decide +kernel, by decide⟩,
    ⟨⟨4096, rfl⟩, by decide +kernel, rfl⟩, ⟨⟨4096, rfl⟩, by decide +kernel, rfl⟩, by decide +kernel, by decide +kernel,
    by decide +kernel, by decide, ⟨_, rfl⟩, rfl⟩

theorem witness_PlacedFrameResolved :
    (let s := { wideRun with
      intake := { wideRun.intake with phase := .place 3 (frame 1500) },
        work := List.replicate 7 (entry 1 false .waiting 0) }
    s.intake.phase = .place 3 (frame 1500) ∧ s.win.state = .run ∧ s.work.length < 8
      ∧ ∃ e, resolution s 3 (frame 1500) = .ok e)
    ∧ (let s := { wideRun with intake := { wideRun.intake with phase := .place 3 (frame 0) } }
    s.intake.phase = .place 3 (frame 0) ∧ s.win.state = .run ∧ s.work.length < 8
      ∧ resolution s 3 (frame 0) = .error .badFocal)
    ∧ 8 ≤ { wideRun with work := List.replicate 8 (entry 1 false .waiting 0) }.work.length
    ∧ ∀ seq f, wideRun.intake.phase ≠ .place seq f :=
  ⟨⟨rfl, rfl, by decide, _, rfl⟩, ⟨rfl, rfl, by decide, rfl⟩, by decide, fun _ _ h => by cases h⟩

/-- The last pixel of the frame, and a frame whose extent ends at the sensor's edge. -/
theorem witness_SourcePosition :
    (let e := entry 0 false .running 0
    EntryOk e ∧ 1 ≤ e.geo.k ∧ 15 < e.geo.wo ∧ e.geo.ox + e.geo.w ≤ wideRun.params.wf
      ∧ 32 < e.geo.ho ∧ e.geo.oy + e.geo.h ≤ wideRun.params.hf
      ∧ deltaAt (e.curve.get .red) (normRadius wideRun.params (0 - e.cx) (0 - e.cy)) = 0)
    ∧ (let g := { smallGeometry with ox := 8176, oy := 5431 }
      g.ox + g.w = wideRun.params.wf ∧ g.oy + g.h = wideRun.params.hf) :=
  ⟨⟨entry_ok _ _ _ _, by decide +kernel⟩, by decide⟩

/-- u at 0, at the end of a curve step and at 8192. -/
theorem witness_CurveReadAtRadius : EntryOk (entry 0 false .running 0)
    ∧ (0 ≤ 8192 ∧ 0 / 128 < 64 ∧ 0 % 128 = 0) ∧ (8191 ≤ 8192 ∧ 8191 / 128 < 64 ∧ 8191 % 128 = 127)
    ∧ (8192 ≤ 8192 ∧ 8192 / 128 = 64) :=
  ⟨entry_ok _ _ _ _, by decide⟩

/-- A pixel inside; a pixel outside under either policy; input samples at and above the white level. -/
theorem witness_OutputWithinWhite :
    (let e := entry 0 false .running 0
    EntryOk e ∧ e.edge = .edge ∧ inside e.geo (sourcePos e wideRun.params .red 15 32) = true
      ∧ bilinear e.geo (fun _ _ => 1023) (sourcePos e wideRun.params .red 15 32) ≤ e.wl
      ∧ ¬ bilinear e.geo (fun _ _ => 1024) (sourcePos e wideRun.params .red 15 32) ≤ e.wl)
    ∧ (let e := { entry 0 false .running 0 with curve := grey (List.replicate 65 16383), edge := .fill }
      e.edge = .fill ∧ inside e.geo (sourcePos e wideRun.params .red 0 0) = false)
    ∧ (1 ≤ { smallGeometry with w := 1, h := 1 }.w ∧ 1 ≤ { smallGeometry with w := 1, h := 1 }.h)
    ∧ (∀ x y : Nat, 5 ≤ (fun _ _ => 5 : Nat → Nat → Nat) x y ∧ (fun _ _ => 5 : Nat → Nat → Nat) x y ≤ 5) :=
  ⟨⟨entry_ok _ _ _ _, by decide +kernel⟩, by decide +kernel, by decide, fun _ _ => ⟨Nat.le_refl 5, Nat.le_refl 5⟩⟩

/-- The last pixel of frames at k = 1, 2 and 4. -/
theorem witness_ZeroCurveFrames :
    ∀ k ∈ [1, 2, 4],
      let e := { entry 0 false .running 0 with geo := { smallGeometry with h := 32, k } }
      (e.curve.get .red = List.replicate 65 0 ∧ e.curve.get .green = List.replicate 65 0
        ∧ e.curve.get .blue = List.replicate 65 0)
      ∧ (e.geo.k = 1 ∨ e.geo.k = 2 ∨ e.geo.k = 4) ∧ e.geo.w % 16 = 0 ∧ e.geo.h % 16 = 0
      ∧ 16 / k - 1 < e.geo.wo ∧ 32 / k - 1 < e.geo.ho := by decide +kernel

theorem witness_BandDependsOnFrozenParts :
    let e := entry 0 false .running 0
    let e' := { entry 9 true .parked 1 with notes := 0x0400, border := 3 }
    e.curve = e'.curve ∧ e.cx = e'.cx ∧ e.cy = e'.cy ∧ e.geo = e'.geo ∧ e.wl = e'.wl ∧ e.edge = e'.edge
      ∧ e.fill = e'.fill ∧ wideRun.params.wf = inRun.params.wf ∧ wideRun.params.hf = inRun.params.hf
      ∧ e ≠ e' ∧ wideRun.params ≠ inRun.params := by decide +kernel

/-- The short last band of a frame, and a frame of one input row. -/
theorem witness_BandRowsAndAddresses :
    let e := entry 0 false .running 0
    1 ≤ e.geo.h ∧ 32 ∈ bandRows e.geo 1 ∧ 15 < e.geo.wo ∧ 32 ∈ neighbourRows e wideRun.params .red 15 32
      ∧ 32 ∈ neededRows e wideRun.params .red 1 ∧ bandReads e wideRun.params 1 ≠ []
      ∧ bandWrites e wideRun.params [] 1 ≠ [] ∧ 1 ≤ { smallGeometry with h := 1 }.h := by decide +kernel

/-- A frame whose every pixel looks outside, under FILL: none of its bands, the short last one among them, needs an
input row. -/
def blind (state : EntryState) (b : Nat) : Entry :=
  { entry 40 false state b with curve := grey (List.replicate 65 (-16384)), edge := .fill }

theorem witness_StartsBand :
    (∀ b ∈ [0, 1], bandReads (blind .running b) inRun.params b = [] ∧ 32 * b < (blind .running b).geo.ho)
    ∧ ∀ b ∈ [0, 1], bandReads (entry 40 false .running b) inRun.params b ≠ [] := by decide +kernel

/-- The three picks, the second and third with one other entry, each of a band that `witness_StartsBand` starts; an
engine at work, HOT, a cancel, an empty list. -/
theorem witness_PickOrder :
    (let s := working .free [entry 40 false .parked 1, entry 41 false .waiting 0, entry 43 true .waiting 1,
        entry 44 true .waiting 0]
    s.engine = .free ∧ s.win.state = .run ∧ s.win.cancel = none
      ∧ s.work = [entry 40 false .parked 1, entry 41 false .waiting 0] ++ entry 43 true .waiting 1
        :: [entry 44 true .waiting 0]
      ∧ (∀ x ∈ s.work, x.state ≠ .running)
      ∧ (∀ x ∈ [entry 40 false .parked 1, entry 41 false .waiting 0], ¬ (x.state = .waiting ∧ x.rush = true))
      ∧ bandReads (entry 43 true .waiting 1) s.params 1 ≠ [])
    ∧ (let s := working .free [entry 40 false .waiting 0, entry 41 false .parked 1]
    s.engine = .free ∧ s.work = [entry 40 false .waiting 0] ++ entry 41 false .parked 1 :: []
      ∧ (∀ x ∈ s.work, x.state ≠ .running) ∧ (∀ x ∈ s.work, ¬ (x.state = .waiting ∧ x.rush = true))
      ∧ (∀ x ∈ [entry 40 false .waiting 0], x.state ≠ .parked) ∧ bandReads (entry 41 false .parked 1) s.params 1 ≠ [])
    ∧ (let s := working .free [entry 40 false .waiting 1, entry 41 false .waiting 0]
    s.engine = .free ∧ s.work = [] ++ entry 40 false .waiting 1 :: [entry 41 false .waiting 0]
      ∧ (∀ x ∈ s.work, x.state ≠ .running) ∧ (∀ x ∈ s.work, x.state = .waiting ∧ x.rush = false)
      ∧ bandReads (entry 40 false .waiting 1) s.params 1 ≠ [])
    ∧ (working .outcome []).engine ≠ .free ∧ (∀ x ∈ inRun.work, x.state = .running)
    ∧ { inRun.win with state := .hot }.state ≠ .run
    ∧ { inRun.win with cancel := some ⟨0, .working⟩ }.cancel ≠ none := by
  decide +kernel

/-- A band's read with a second one outstanding, with one not yet issued, and the last one; in DRAIN. -/
theorem witness_BandReadReturned :
    let s := waitsFor (.bandRead .blue 32) (.read 10240 32) (working (.band [] 0 []) [entry 40 false .running 1])
    s.awaitsRead 7 (.bandRead .blue 32) (List.replicate 32 (0 : Byte)).length ∧ s.engine = .band [] 0 []
    ∧ (∀ r ∈ s.port.reqs, r.tag ≠ 7 → r.live = true → r.use.isBandRead = false)
    ∧ runningEntry s.work = some (entry 40 false .running 1) ∧ 32 * 1 < (entry 40 false .running 1).geo.ho
    ∧ (let s' := alsoWaitsFor (.bandRead .red 32) (.read 2048 32) s
      s'.awaitsRead 7 (.bandRead .blue 32) (List.replicate 32 (0 : Byte)).length
        ∧ ∃ r ∈ s'.port.reqs, r.tag ≠ 7 ∧ r.live = true ∧ r.use.isBandRead = true)
    ∧ [((.bandRead .red 32, .read 2048 32) : Use × Access)] ≠ []
    ∧ ∀ cache tally rest, { s with engine := .drain .cancelled }.engine ≠ .band cache tally rest :=
  ⟨⟨10240, rfl⟩, rfl, by decide +kernel, by decide +kernel, by decide, ⟨⟨10240, rfl⟩, by decide +kernel⟩, by decide,
    fun _ _ _ h => by cases h⟩

/-- An output write with a second one outstanding, with one not yet issued and in DRAIN; the last one at a cancel, at
the frame's last band, at the first band of a BURST frame with a RUSH entry waiting, and at the first band of a frame
that goes on. -/
theorem witness_BandDone :
    (∀ b others, (lastWrite b others).awaitsWrite 7 (.bandWrite .blue 0) ∧ (lastWrite b others).engine = .band [] 0 []
      ∧ (lastWrite b others).work = [] ++ entry 40 false .running b :: others
      ∧ ∀ r ∈ (lastWrite b others).port.reqs, r.tag ≠ 7 → r.live = true → r.use.isBandWrite = false)
    ∧ (entry 40 false .running 0).state = .running
    ∧ (let s := alsoWaitsFor (.bandWrite .red 1) (.write []) (lastWrite 0 [])
      s.awaitsWrite 7 (.bandWrite .blue 0) ∧ ∃ r ∈ s.port.reqs, r.tag ≠ 7 ∧ r.live = true ∧ r.use.isBandWrite = true)
    ∧ { inRun.win with cancel := some ⟨0, .working⟩ }.cancel ≠ none
    ∧ (1 + 1 = (entry 40 false .running 1).geo.bands ∧ 0 + 1 ≠ (entry 40 false .running 0).geo.bands)
    ∧ ((entry 40 false .running 0).rush = false
      ∧ ∃ x ∈ ([] ++ [entry 43 true .waiting 0] : List Entry), x.state = .waiting ∧ x.rush = true)
    ∧ (∀ x ∈ ([] ++ [entry 43 true .waiting 0] : List Entry), x.state ≠ .running)
    ∧ (∀ x ∈ ([] ++ [entry 41 false .waiting 0] : List Entry), ¬ (x.state = .waiting ∧ x.rush = true))
    ∧ [((.bandWrite .red 1, .write []) : Use × Access)] ≠ []
    ∧ ∀ cache tally rest, { lastWrite 0 [] with engine := .drain .cancelled }.engine ≠ .band cache tally rest :=
  ⟨fun b others => ⟨⟨[(24576, [0, 0])], rfl⟩, rfl, rfl, by simp [lastWrite, waitsFor]⟩, rfl,
    ⟨⟨[(24576, [0, 0])], rfl⟩, by decide +kernel⟩, by decide, by decide, by decide +kernel, by decide +kernel,
    by decide +kernel, by decide, fun _ _ _ h => by cases h⟩

/-- A failing read and a failing write, in BAND with and without a write outstanding, and in OUTCOME; DRAIN with and
without one. -/
theorem witness_BandFailure :
    (let s := waitsFor (.bandRead .red 0) (.read 0 32) (working (.band [] 0 []) [entry 40 false .running 0])
    s.awaitsRead 7 (.bandRead .red 0) 32 ∧ s.engine = .band [] 0 []
      ∧ runningEntry s.work = some (entry 40 false .running 0)
      ∧ ∀ r ∈ s.port.reqs, r.tag ≠ 7 → r.live = true → r.use.isBandWrite = false)
    ∧ (let s := alsoWaitsFor (.bandWrite .red 1) (.write []) (lastWrite 0 [])
    s.awaitsWrite 7 (.bandWrite .blue 0) ∧ s.engine = .band [] 0 []
      ∧ ∃ r ∈ s.port.reqs, r.tag ≠ 7 ∧ r.live = true ∧ r.use.isBandWrite = true)
    ∧ (∀ cache tally rest, (working .outcome [entry 40 false .running 0]).engine ≠ .band cache tally rest)
    ∧ (let s := { lastWrite 0 [] with engine := .drain (.abandoned .overheat) }
    s.engine = .drain (.abandoned .overheat) ∧ runningEntry s.work = some (entry 40 false .running 0)
      ∧ (∃ r ∈ s.port.reqs, r.live = true ∧ r.use.isBandWrite = true)
      ∧ ∀ r ∈ { s with port := Port.reset }.port.reqs, r.live = true → r.use.isBandWrite = false) :=
  ⟨⟨⟨0, rfl⟩, by decide +kernel⟩, ⟨⟨[(24576, [0, 0])], rfl⟩, by decide +kernel⟩, (fun _ _ _ h => by cases h),
    by decide +kernel⟩

/-- A request of each use, and no request. -/
theorem witness_TimeoutIsBusError :
    (∀ use access, ∃ r, (waitsFor use access inRun).port.find 7 = some r ∧ r.use = use)
    ∧ (readingDocket inRun).awaitsRead 7 .docket 128 ∧ (readingDocket inRun).win.state = .run
    ∧ inRun.port.find 7 = none :=
  ⟨fun _ _ => ⟨_, rfl, rfl⟩, ⟨4096, rfl⟩, rfl, rfl⟩

/-- A docket to take at 65,535, none to take, and one to mark below a cancel's boundary. -/
theorem witness_DocketsTakenAndMarked :
    (let s := { inRun with win := { inRun.win with post := 0 }, intake := { inRun.intake with taken := 65535 } }
    s.win.state = .run ∧ s.intake.phase = .idle ∧ s.intake.install = false ∧ s.win.cancel = none
      ∧ s.intake.taken ≠ s.win.post)
    ∧ inRun.intake.taken = inRun.win.post ∧ State.reset.win.state = .setup
    ∧ (readingDocket inRun).intake.phase ≠ .idle ∧ (installing 36 inRun).intake.install = true
    ∧ (let s := { inRun with
        win := { inRun.win with post := 1, cancel := some ⟨1, .working⟩ } }
      s.intake.phase = .idle ∧ s.win.cancel = some ⟨1, .working⟩ ∧ s.intake.taken ≠ (1 : Count)
        ∧ { s with intake := { s.intake with taken := 1 } }.intake.taken = (1 : Count)) := by decide

/-- Slot fields 11, 12 and 15; lengths 35, 36, 1072 and 1073; an image that ends at the window's end, and one a byte
further. -/
theorem witness_InstallDocketChecked :
    let docket := fun (slot addr length : Nat) => record [(0, 1, 2), (16, 1, slot), (20, 4, addr), (24, 2, length)]
    (∀ d, d.length = 128 → (readingDocket inRun).awaitsDocket 7 0 d)
    ∧ (∀ slot ∈ [11, 12, 15], (docket slot 0 36).length = 128 ∧ docketKind (docket slot 0 36) = 2
      ∧ slotField (docket slot 0 36) = slot)
    ∧ (∀ length ∈ [35, 36, 1072, 1073], imageLength (docket 11 0 length) = length)
    ∧ (∀ x ∈ { inRun with slots := List.replicate 12 .loading }.slots, x ≠ .empty)
    ∧ (let s := { inRun with slots := inRun.slots.set 0 .loading }
      s.slots[1]? = some .empty ∧ ∀ j < 1, s.slots[j]? ≠ some .empty)
    ∧ (inRun.params.low ≤ imageAddr (docket 11 65500 36) ∧ imageAddr (docket 11 65500 36) + 36 ≤ inRun.params.high)
    ∧ inRun.params.high < imageAddr (docket 11 65501 36) + 36 :=
  ⟨fun _ h => ⟨⟨4096, rfl⟩, h, rfl⟩, by decide +kernel⟩

/-- An image of two stations as given, and what the part reads from it. -/
def image2 (a b : Station) (trims : Trims) : List Byte := imageBytes { ident := lens4121, stations := [a, b], trims }

/-- The identity, the station count, the trims and the walk of an image hold, by the statement's own words. -/
def headOk (b : List Byte) : Bool :=
  imageLayout b == 1 && decide (1 ≤ imageStations b ∧ imageStations b ≤ 8) && (imageProfile b).trims.inRange
    && (List.range (imageStations b)).all (fun j =>
      decide (stationOffset b j + 4 ≤ b.length ∧ stationOffset b (j + 1) ≤ b.length))
    && decide (stationOffset b (imageStations b) = b.length)

/-- An image for each check of the statement: a layout of 2, a station count of 0 and of 9, a record that does not fit
and one too few, trims out of range; then, with all that in order, a second station whose focal length is no greater
than the first's, with one knot, with knots out of order and with a value out of range, and an image in order. -/
theorem witness_image_checks :
    let good := image2 (ramp 1000 0) (ramp 2000 5) profile.trims
    let knots := fun (u d : Int) =>
      ({ focal := 2000, knots := [⟨0, grey 0⟩, ⟨u.toNat, grey d⟩] } : Station)
    imageLayout (good.set 0 2) = 2
    ∧ (imageLayout good = 1 ∧ (imageProfile good).ident = lens4121)
    ∧ imageStations (good.set 5 0) = 0 ∧ imageStations (good.set 5 9) = 9
    ∧ (stationOffset (good.take 55) 1 ≤ 55 ∧ ¬ stationOffset (good.take 55) 2 ≤ 55)
    ∧ stationOffset (good ++ [0]) 2 ≠ (good ++ [0]).length
    ∧ (imageProfile (image2 (ramp 1000 0) (ramp 2000 5) { x := 1024, y := 0, scale := 0 })).trims.x = 1024
    ∧ (∀ x ∈ [ramp 1000 5, { focal := 2000, knots := [⟨0, grey 0⟩] }, knots 8193 5, knots 8192 16384, ramp 2000 5],
      let b := image2 (ramp 1000 0) x profile.trims
      headOk b = true ∧ (imageProfile b).stations = [ramp 1000 0, x]) := by decide +kernel

/-- The stations of those images: the first is in order; the second fails the check of its focal length, of its knot
count, of its second knot's u and of its second knot's values, or none. -/
theorem witness_station_checks :
    FocalOk [ramp 1000 0, ramp 2000 5] 0 ∧ FocalOk [ramp 1000 0, ramp 2000 5] 1
    ∧ ¬ FocalOk [ramp 1000 0, ramp 1000 5] 1
    ∧ [(⟨0, grey 0⟩ : Knot)].length < 2
    ∧ (∀ i < 2, KnotOrdered (ramp 1000 0).knots i) ∧ ¬ KnotOrdered [⟨0, grey 0⟩, ⟨8193, grey 5⟩] 1
    ∧ KnotInRange ⟨0, grey 0⟩ ∧ KnotInRange ⟨8192, grey 5⟩ ∧ ¬ KnotInRange ⟨8192, grey 16384⟩ := by
  refine ⟨?_, ?_, ?_, by decide, ?_, ?_, ?_, ?_, ?_⟩
  · simp [FocalOk, ramp]
  · simp only [FocalOk, ramp]
    refine ⟨_, rfl, by decide, ?_⟩
    rintro (_ | i) y hi h
    · simp at h; subst h; decide
    · omega
  · simp [FocalOk, ramp]
  · intro i hi
    obtain rfl | rfl : i = 0 ∨ i = 1 := by omega
    · simp [KnotOrdered, ramp]
    · simp only [KnotOrdered, ramp]
      refine ⟨_, rfl, by decide, by decide, ?_⟩
      rintro (_ | j) y hj h
      · simp at h; subst h; decide
      · omega
  · simp [KnotOrdered]
  all_goals simp only [KnotInRange, forall_channel]; decide

/-- Reads of an image that return: with another not issued, with another outstanding, and the last of them, for a failed
check, a duplicate, and an image that ends READY; one without an install in progress. -/
theorem witness_InstallEnds :
    let image := image16 30 3000 0
    let buffer := fun length : Nat => List.replicate length (0 : Byte)
    (∀ s b, (installing (List.length (α := Byte) b) s).intake.phase = .executing 0 9 (buffer b.length) []
      ∧ (installing b.length s).awaitsRead 7 (.image 0) b.length)
    ∧ (∀ b : List Byte, putBytes (buffer b.length) 0 b = b)
    ∧ (∀ r ∈ (installing 148 inRun).port.reqs, r.tag ≠ 7 → r.live = true → r.use.isImage = false)
    ∧ imageViolation (image16 300 2000 (-17000)) = some ⟨.trimRange, none, none⟩
    ∧ imageViolation image = none
    ∧ (Slot.ready profile ∈ (installing 148 (withProfile inRun)).slots ∧ profile.ident = (imageProfile image).ident)
    ∧ (∀ pr, Slot.ready pr ∈ (installing 148 inRun).slots → pr.ident ≠ (imageProfile image).ident)
    ∧ (installingTwo.intake.phase = .executing 0 9 (buffer 148) [] ∧ installingTwo.awaitsRead 7 (.image 0) 100
      ∧ ∃ r ∈ installingTwo.port.reqs, r.tag ≠ 7 ∧ r.live = true ∧ r.use.isImage = true)
    ∧ (let s := waitsFor (.image 0) (.read 256 100) { inRun with
        intake := { inRun.intake with phase := .executing 0 9 (buffer 148) [(.image 100, .read 356 48)] } }
      s.intake.phase = .executing 0 9 (buffer 148) [(.image 100, .read 356 48)] ∧ s.awaitsRead 7 (.image 0) 100)
    ∧ (let s := waitsFor (.image 0) (.read 256 100) inRun
      s.awaitsRead 7 (.image 0) 100 ∧ s.intake.phase = .idle) := by
  refine ⟨fun _ _ => ⟨rfl, 256, rfl⟩, fun b => by simp [putBytes], by decide +kernel, by decide +kernel,
    by decide +kernel, by decide +kernel, ?_, ⟨rfl, ⟨256, rfl⟩, by decide +kernel⟩, ⟨rfl, 256, rfl⟩, ⟨256, rfl⟩, rfl⟩
  intro pr h
  simp [installing, waitsFor, inRun, State.reset, Config.slotCount] at h

theorem witness_ProfileImageRoundTrip : ProfileOk profile ∧ (imageBytes profile).length = 56 :=
  ⟨profile_ok, by decide +kernel⟩

theorem witness_AcceptedImagesHoldProfiles : imageViolation (image16 30 3000 0) = none := by decide +kernel

/-- Slot fields 12 and 4, the second EMPTY and READY; kinds 0 and 6. -/
theorem witness_DropAndUnknownKind :
    let drop := fun slot => record [(0, 1, 3), (16, 1, slot)]
    (readingDocket inRun).awaitsDocket 7 0 (drop 12) ∧ (readingDocket inRun).awaitsDocket 7 0 (drop 4)
    ∧ docketKind (drop 12) = 3 ∧ 12 ≤ slotField (drop 12) ∧ docketKind (drop 4) = 3 ∧ slotField (drop 4) < 12
    ∧ (∀ pr, (readingDocket inRun).slots[slotField (drop 4)]? ≠ some (.ready pr))
    ∧ (readingDocket (withProfile inRun)).slots[slotField (drop 4)]? = some (.ready profile)
    ∧ (readingDocket inRun).awaitsDocket 7 0 (record []) ∧ docketKind (record []) = 0
    ∧ (readingDocket inRun).awaitsDocket 7 0 (record [(0, 1, 6)]) ∧ 5 < docketKind (record [(0, 1, 6)]) := by
  refine ⟨⟨⟨4096, rfl⟩, by decide +kernel, rfl⟩, ⟨⟨4096, rfl⟩, by decide +kernel, rfl⟩, by decide +kernel,
    by decide +kernel, by decide +kernel, by decide +kernel, ?_, by decide +kernel,
    ⟨⟨4096, rfl⟩, by decide +kernel, rfl⟩, by decide +kernel, ⟨⟨4096, rfl⟩, by decide +kernel, rfl⟩, by decide +kernel⟩
  intro pr h
  rw [show slotField (record [(0, 1, 3), (16, 1, 4)]) = 4 by decide +kernel] at h
  simp [readingDocket, waitsFor, inRun, State.reset, Config.slotCount] at h

/-- Steps of 64 and −64, and one of 65; a SET; mode 2; slot field 15 and an EMPTY slot. -/
theorem witness_TrimDockets :
    let trim := fun mode x y => record [(0, 1, 4), (16, 1, 4), (17, 1, mode), (18, 2, x), (20, 2, y)]
    (∀ d, d.length = 128 → (readingDocket (withProfile inRun)).awaitsDocket 7 0 d)
    ∧ (∀ d ∈ [trim 0 64 65472, trim 0 0 65, trim 1 63536 5, trim 2 0 0], d.length = 128 ∧ docketKind d = 4
      ∧ slotField d < 12 ∧ (withProfile inRun).slots[slotField d]? = some (.ready profile))
    ∧ (let d := trim 0 64 65472
      trimMode d = 0 ∧ |(trimValues d).x| = 64 ∧ |(trimValues d).y| = 64 ∧ |(trimValues d).scale| ≤ 64)
    ∧ (trimMode (trim 0 0 65) = 0 ∧ 64 < |(trimValues (trim 0 0 65)).y|)
    ∧ (trimMode (trim 1 63536 5) = 1 ∧ 1 < trimMode (trim 2 0 0))
    ∧ 12 ≤ slotField (record [(0, 1, 4), (16, 1, 15)]) ∧ ∀ pr, inRun.slots[4]? ≠ some (.ready pr) :=
  ⟨fun _ h => ⟨⟨4096, rfl⟩, h, rfl⟩, by decide +kernel, by decide +kernel, by decide +kernel, by decide +kernel,
    by decide +kernel, by simp [inRun, State.reset, Config.slotCount]⟩

/-- An OPTIONS docket that names all four fields, and the values the statement admits for a field. -/
def optionsRecord (g m st : Nat) : List Byte :=
  record [(0, 1, 5), (16, 1, 15), (17, 1, g), (18, 1, m), (19, 1, st), (20, 1, 255)]

def optionFieldOk (b : List Byte) (i : Nat) : Bool := decide <|
  (i = 0 ∧ fieldAt b 17 1 ∈ [0, 1, 2, 4, 8, 16]) ∨ (i = 1 ∧ fieldAt b 18 1 ≤ 1) ∨ (i = 2 ∧ fieldAt b 19 1 ≤ 1) ∨ i = 3

/-- N at, below and above the counter, and 0; a docket that names all four fields, each valid, and one whose field of
each index 0, 1 and 2 is the first invalid one. -/
theorem witness_OptionsDocketHandled :
    (let g := { inRun.sig with grouping := 4, counter := 2 }
    0 < 2 ∧ 2 ≤ g.counter ∧ g.counter < 4 ∧ 0 < g.counter ∧ inRun.sig.counter = 0)
    ∧ (∀ d, d.length = 128 → (readingDocket inRun).awaitsDocket 7 0 d)
    ∧ (∀ d ∈ [optionsRecord 16 1 1, optionsRecord 3 1 1, optionsRecord 0 2 1, optionsRecord 1 0 2],
      d.length = 128 ∧ docketKind d = 5 ∧ ∀ i < 4, (fieldAt d 16 1).testBit i = true)
    ∧ (∀ i < 4, optionFieldOk (optionsRecord 16 1 1) i)
    ∧ ¬ optionFieldOk (optionsRecord 3 1 1) 0
    ∧ (¬ optionFieldOk (optionsRecord 0 2 1) 1 ∧ ∀ j < 1, optionFieldOk (optionsRecord 0 2 1) j)
    ∧ (¬ optionFieldOk (optionsRecord 1 0 2) 2 ∧ ∀ j < 2, optionFieldOk (optionsRecord 1 0 2) j) :=
  ⟨by decide, fun _ h => ⟨⟨4096, rfl⟩, h, rfl⟩, by decide +kernel⟩

/-- An answer of the intake unit's and one of an entry's, each verdict; a writer with an answer in hand, none waiting.
-/
theorem witness_AnswerTakenUp :
    (let s := { inRun with writer := { inHand := none, waiting := [.intake (answer 1), .entry 40 .cancelled] } }
    s.win.state = .run ∧ s.writer.inHand = none ∧ s.writer.waiting = .intake (answer 1) :: [.entry 40 .cancelled])
    ∧ (∀ v : Verdict, let s := { working .free [entry 40 true .waiting 0] with
          writer := { inHand := none, waiting := [.entry 40 v] } }
      s.win.state = .run ∧ s.writer.waiting = .entry 40 v :: []
        ∧ s.work.find? (fun x => x.seq = 40) = some (entry 40 true .waiting 0))
    ∧ (inHand ⟨answer 1, false, .writing, false, []⟩ inRun).writer.inHand ≠ none ∧ inRun.writer.waiting = [] :=
  ⟨by decide +kernel, fun _ => ⟨rfl, rfl, rfl⟩, by decide +kernel, rfl⟩

/-- The write of an answer's result fields; the outcome byte of the intake unit's answer, of a RUNNING entry's, and of
one that is gone. -/
theorem witness_AnswerAcknowledged :
    (let s := waitsFor (.answer .results) (.write []) (inHand ⟨answer 1, false, .writing, false, []⟩ inRun)
    s.awaitsWrite 7 (.answer .results) ∧ AnswerPart.results ≠ .outcome
      ∧ s.writer.inHand = some ⟨answer 1, false, .writing, false, []⟩)
    ∧ (let s := waitsFor (.answer .outcome) (.write []) (inHand ⟨answer 1, false, .writing, false, []⟩ inRun)
    s.awaitsWrite 7 (.answer .outcome) ∧ s.writer.inHand = some ⟨answer 1, false, .writing, false, []⟩)
    ∧ (let s := waitsFor (.answer .outcome) (.write []) (inHand ⟨answer 40, true, .writing, false, []⟩
        (working .outcome [entry 39 false .parked 1, entry 40 true .running 2]))
    s.awaitsWrite 7 (.answer .outcome) ∧ s.writer.inHand = some ⟨answer 40, true, .writing, false, []⟩
      ∧ s.work = [entry 39 false .parked 1] ++ entry 40 true .running 2 :: []
      ∧ (entry 40 true .running 2).seq = (answer 40).seq ∧ (entry 40 true .running 2).state = .running
      ∧ ∀ x ∈ [entry 39 false .parked 1], x.seq ≠ (entry 40 true .running 2).seq)
    ∧ (let s := waitsFor (.answer .outcome) (.write []) (inHand ⟨answer 41, true, .writing, false, []⟩ inRun)
    s.awaitsWrite 7 (.answer .outcome) ∧ s.writer.inHand = some ⟨answer 41, true, .writing, false, []⟩
      ∧ ∀ x ∈ s.work, x.seq ≠ (answer 41).seq) :=
  ⟨⟨⟨[], rfl⟩, by decide, rfl⟩, ⟨⟨[], rfl⟩, rfl⟩, ⟨⟨[], rfl⟩, rfl, rfl, rfl, rfl, by decide +kernel⟩, ⟨[], rfl⟩, rfl,
    by decide +kernel⟩

/-- A reset and a REOPEN of a part whose retired count is 5. -/
theorem witness_RetireCheck :
    let s := { inRun with
      win := { inRun.win with post := 5 }, intake := { inRun.intake with retired := 5, taken := 5 } }
    exec .powerOnReset s = .next (run .powerOnReset s) ∧ exec .softReset s = .next (run .softReset s)
    ∧ exec .modeReopen s = .next (run .modeReopen s) ∧ (run .modeReopen s).win.state = .setup
    ∧ exec (.exchangeFault 7) (readingDocket s) = .next (run (.exchangeFault 7) (readingDocket s)) :=
  ⟨rfl, rfl, rfl, by decide +kernel, rfl⟩

/-- The signalling update without a cancel, with one that becomes settled, and with one that does not; a retire check
that met POST before POST moved on. -/
theorem witness_SignallingUpdate :
    let s := inHand ⟨answer 0, true, .update, false, []⟩ inRun
    (s.writer.inHand = some ⟨answer 0, true, .update, false, []⟩ ∧ s.win.cancel = none)
    ∧ (let c := { s with win := { s.win with cancel := some ⟨0, .working⟩ } }
      c.win.cancel = some ⟨0, .working⟩ ∧ c.intake.taken = 0 ∧ c.intake.phase = .idle ∧ c.work = [] ∧ c.engine = .free
        ∧ c.writer.waiting = [])
    ∧ (let c := { s with win := { s.win with cancel := some ⟨1, .working⟩ } }
      c.win.cancel = some ⟨1, .working⟩ ∧ c.intake.taken ≠ 1)
    ∧ (⟨answer 0, true, .update, true, []⟩ : InHand).metPost = true
      ∧ inRun.intake.retired ≠ { inRun.win with post := 9 }.post := by decide

/-- A write to take up, with an empty log and with a newest sample; a write's last acknowledgement; one outstanding. -/
theorem witness_ReportBlockWrites :
    (let s := { inRun with report := { inRun.report with pending := true } }
    s.win.state = .run ∧ s.report.writing = false ∧ s.report.pending = true ∧ s.tap.log = []
      ∧ s.tap.log.length ≤ 64)
    ∧ tap27.log.getLast? = some ⟨996000, 2380⟩ ∧ tap27.log.length ≤ 64
    ∧ (waitsFor (.report .trailing) (.write []) inRun).awaitsWrite 7 (.report .trailing)
    ∧ ((waitsFor (.report .body) (.write []) inRun).awaitsWrite 7 (.report .body) ∧ ReportPart.body ≠ .trailing)
    ∧ { inRun.report with writing := true }.writing = true ∧ inRun.report.pending = false
    ∧ State.reset.win.state = .setup :=
  ⟨by decide, rfl, by decide, ⟨[], rfl⟩, ⟨⟨[], rfl⟩, by decide⟩, rfl, rfl, rfl⟩

/-- CTRL writes with SOFT_RESET; of every other part; with CANCEL and ERROR_CLEAR in SETUP; with MODE 1 and ERROR_CLEAR
in RUN; with CANCEL, MODE 2 and ERROR_CLEAR in RUN. Writes of 32 bits and of 16. -/
theorem witness_CtrlWriteOrder :
    (0xFFFFFFFF#32).getLsbD 5 = true
    ∧ ((0xFFFFFFDF#32).getLsbD 5 = false ∧ (0xFFFFFFDF#32).getLsbD 2 = true ∧ (0xFFFFFFDF#32).extractLsb' 0 2 = 3)
    ∧ ((2 ≠ 4 ∨ 0x04 ∉ [0x04, 0x08, 0x10]) ∧ (4 ≠ 4 ∨ 0x0C ∉ [0x04, 0x08, 0x10]))
    ∧ ((0x14#32).getLsbD 5 = false ∧ (0x14#32).getLsbD 2 = true ∧ (0x14#32).getLsbD 4 = true
      ∧ State.reset.win.state = .setup ∧ ∃ t, execAll (ctrlWrite 0x14) State.reset = .next t)
    ∧ ((0x11#32).getLsbD 5 = false ∧ (0x11#32).getLsbD 2 = false ∧ (0x11#32).extractLsb' 0 2 = 1
      ∧ (0x11#32).getLsbD 4 = true ∧ inRun.win.state ≠ .setup ∧ ∃ t, execAll (ctrlWrite 0x11) inRun = .next t)
    ∧ ((0x16#32).getLsbD 5 = false ∧ (0x16#32).getLsbD 2 = true ∧ (0x16#32).extractLsb' 0 2 = 2
      ∧ (0x16#32).getLsbD 4 = true ∧ inRun.win.state = .run ∧ ∃ t, execAll (ctrlWrite 0x16) inRun = .next t) :=
  ⟨rfl, ⟨rfl, rfl, rfl⟩, by decide, ⟨rfl, rfl, rfl, rfl, _, rfl⟩, ⟨rfl, rfl, rfl, rfl, by decide, _, rfl⟩, rfl, rfl,
    rfl, rfl, rfl, _, rfl⟩

/-- POST 64 and 65 ahead of the retired count, at and below the taken count, during a cancel that it settles and during
one that it does not; XBASE in SETUP, aligned and not, during the setup read and in RUN; the last byte of a register. -/
theorem witness_RegisterWindow :
    0x14 ∉ [0x00, 0x04, 0x08, 0x0C, 0x10] ∧
    let s := { inRun with intake := { inRun.intake with retired := 65530, taken := 65534 } }
    s.win.state = .run ∧ State.reset.win.state = .setup
    ∧ ((58 : Count) - s.intake.retired).toNat = 64 ∧ 64 < ((59 : Count) - s.intake.retired).toNat
    ∧ ((65534 : Count) - s.intake.retired).toNat = (s.intake.taken - s.intake.retired).toNat
    ∧ ((65533 : Count) - s.intake.retired).toNat < (s.intake.taken - s.intake.retired).toNat
    ∧ (0 < 1 ∧ 0x0F % 4 + 0 < 4)
    ∧ s.win.cancel = none ∧ { s.win with cancel := some ⟨58, .working⟩ }.cancel = some ⟨58, .working⟩
    ∧ ((⟨58, .working⟩ : Cancel).stage = .working
      ∧ s.intake.taken = (if ((65534 : Count) - s.intake.retired).toNat < ((58 : Count) - s.intake.retired).toNat
        then (65534 : Count) else 58)
      ∧ s.intake.phase = .idle ∧ s.work = [] ∧ s.engine = .free ∧ s.writer = { inHand := none, waiting := [] })
    ∧ (⟨58, .reported⟩ : Cancel).stage ≠ .working
    ∧ State.reset.win.setupRead = false ∧ (0xFFFFF000#32).toNat % 4096 = 0 ∧ (0x00000001#32).toNat % 4096 ≠ 0
    ∧ readingSetup.win.setupRead = true ∧ inRun.win.state ≠ .setup := by decide +kernel

/-- A RUN request in SETUP, in RUN and during the setup read; a setup block of another layout and a valid one; a quiet
timer at the new Q. -/
theorem witness_RunEntry :
    (State.reset.win.state = .setup ∧ State.reset.win.setupRead = false)
    ∧ inRun.win.state ≠ .setup ∧ readingSetup.win.setupRead = true
    ∧ readingSetup.awaitsRead 7 .setupBlock 22 ∧ readingSetup.win.state = .setup
    ∧ ((setupBytes 1).length = 22 ∧ (setupFields (setupBytes 1)).valid readingSetup.win.xbase = true)
    ∧ ((setupBytes 2).length = 22 ∧ (setupFields (setupBytes 2)).valid readingSetup.win.xbase = false)
    ∧ (let s := withTap { tap27 with quietTimer := 40000 } readingSetup
      s.awaitsRead 7 .setupBlock 22
        ∧ (!s.tap.quiet && decide ((setupFields (setupBytes 1)).quietMs * 1000 ≤ s.tap.quietTimer)) = true) :=
  ⟨⟨rfl, rfl⟩, by decide, rfl, ⟨0x10000, rfl⟩, rfl, by decide +kernel, by decide +kernel, ⟨0x10000, rfl⟩,
    by decide +kernel⟩

/-- A quiescent part, and each ground of a refusal. -/
theorem witness_Reopen :
    (inRun.win.state = .run ∧ inRun.win.post = inRun.intake.taken ∧ inRun.intake.taken = inRun.intake.retired
      ∧ inRun.work = [] ∧ inRun.win.cancel = none ∧ inRun.writer = { inHand := none, waiting := [] }
      ∧ inRun.report.writing = false ∧ inRun.report.pending = false)
    ∧ State.reset.win.state ≠ .run ∧ { inRun.win with post := 1 }.post ≠ inRun.intake.taken
    ∧ (readingDocket inRun).intake.taken ≠ (readingDocket inRun).intake.retired
    ∧ (working .free [entry 1 false .waiting 0]).work ≠ []
    ∧ { inRun.win with cancel := some ⟨0, .working⟩ }.cancel ≠ none
    ∧ (inHand ⟨answer 1, false, .writing, false, []⟩ inRun).writer ≠ { inHand := none, waiting := [] }
    ∧ { inRun.report with writing := true }.writing = true ∧ { inRun.report with pending := true }.pending = true := by
  decide +kernel

/-- CANCEL in SETUP, during a cancel, with nothing and with an entry below the boundary; a completion due and not due.
-/
theorem witness_CancelCommands :
    State.reset.win.state = .setup
    ∧ (let s := { inRun with win := { inRun.win with cancel := some ⟨0, .reported⟩ } }
      s.win.state = .run ∧ s.win.cancel = some ⟨0, .reported⟩ ∧ s.win.cancel ≠ none
        ∧ (⟨0, .reported⟩ : Cancel).stage = .reported ∧ (⟨0, .working⟩ : Cancel).stage ≠ .reported)
    ∧ (inRun.win.state = .run ∧ inRun.win.cancel = none ∧ inRun.intake.taken = inRun.win.post
      ∧ inRun.intake.phase = .idle ∧ inRun.work = [] ∧ inRun.engine = .free
      ∧ inRun.writer = { inHand := none, waiting := [] })
    ∧ (let s := working .free [entry 1 false .waiting 0]; s.win.state = .run ∧ s.win.cancel = none ∧ s.work ≠ []) := by
  decide +kernel

/-- A docket read in RUN, the same no longer live, and an answer's write in SETUP. -/
theorem witness_ExchangeFaultTaken :
    (let s := { readingDocket inRun with slots := inRun.slots.set 2 .loading }
    s.port.find 7 = some ⟨7, .docket, .read 4096 128, true⟩ ∧ Use.docket.isExchange = true ∧ s.win.state = .run
      ∧ s.slots[2]? = some .loading)
    ∧ (let s := { inRun with port := { reqs := [⟨7, .docket, .read 4096 128, false⟩], nextTag := 8 } }
    s.port.find 7 = some ⟨7, .docket, .read 4096 128, false⟩)
    ∧ ((waitsFor (.answer .outcome) (.write []) State.reset).port.find 7 = some ⟨7, .answer .outcome, .write [], true⟩
      ∧ (Use.answer .outcome).isExchange = true ∧ State.reset.win.state = .setup) := by decide +kernel

/-- Temperatures at the ends of the code's range; the engine out of a band, in one with a write outstanding and without,
in RUN, with a sample that starts the shutdown condition; a return from HOT with an entry to pick. -/
theorem witness_TemperatureSampled :
    ((-40000 : Int) / 1000 ≤ -40 ∧ -39 ≤ (-39000 : Int) / 1000 ∧ (214999 : Int) / 1000 ≤ 214
      ∧ 215 ≤ (215000 : Int) / 1000)
    ∧ (∀ cache tally rest, inRun.engine ≠ .band cache tally rest)
    ∧ (let s := lastWrite 0 []
    s.engine = .band [] 0 [] ∧ s.win.state = .run ∧ (∃ r ∈ s.port.reqs, r.live = true ∧ r.use.isBandWrite = true)
      ∧ s.thermal.shutdown = false ∧ (run (.temperatureSample 118000) s).thermal.shutdown = true
      ∧ (run (.temperatureSample 117999) s).thermal.shutdown = false)
    ∧ (let s := working (.band [] 0 []) [entry 40 false .running 0]
    s.engine = .band [] 0 [] ∧ (∀ r ∈ s.port.reqs, r.live = true → r.use.isBandWrite = false)
      ∧ runningEntry s.work = some (entry 40 false .running 0))
    ∧ (let s := { working .free [entry 40 false .waiting 0] with
        win := { inRun.win with state := .hot }, thermal := { code := 160, warning := true, shutdown := true } }
      s.win.state = .hot ∧ s.thermal.shutdown = true ∧ (run (.temperatureSample 104999) s).thermal.shutdown = false
        ∧ (run (.temperatureSample 105000) s).thermal.shutdown = true) :=
  ⟨by decide, (fun _ _ _ h => by cases h), by decide +kernel, by decide +kernel, by decide +kernel⟩

/-- An install of docket 0 into slot 9, its image's read outstanding. -/
def loadingNine : State :=
  let s := installing 148 inRun
  { s with intake := { s.intake with taken := 1 }, pending := [.imageReadFault 7] }

theorem loading_ok : TableOk loadingNine.slots ∧ LoadingOk loadingNine ∧ DocketsOk loadingNine := by
  have slots (i : Nat) : loadingNine.slots[i]? = if i = 9 then some .loading else State.reset.slots[i]? := by
    show ((List.replicate 12 Slot.empty).set 9 .loading)[i]? = _
    rw [List.getElem?_set]
    by_cases h : i = 9 <;> simp [h, State.reset, Config.slotCount, eq_comm]
  have intake : loadingNine.atIntake = [0] ∧ loadingNine.unanswered = [0] := by decide +kernel
  have ready (i : Nat) (p : Profile) : loadingNine.slots[i]? ≠ some (.ready p) := by
    rw [slots]; split <;> simp [State.reset, List.getElem?_replicate]
  refine ⟨⟨rfl, fun p hp => ?_, fun i j p q hi => absurd hi (ready i p)⟩, fun i => ⟨fun hi => ?_, ?_⟩,
    by decide +kernel, fun seq hs => ?_, fun seq hs => ?_, by decide +kernel, fun h hh => ?_, by decide +kernel⟩
  · obtain ⟨i, hi⟩ := List.mem_iff_getElem?.1 hp
    exact absurd hi (ready i p)
  · rw [slots] at hi
    split at hi
    · next h => subst h; exact ⟨_, _, _, rfl⟩
    · simp [State.reset, List.getElem?_replicate] at hi
  · rintro ⟨_, _, _, h⟩
    cases h
    rw [slots]; rfl
  · obtain rfl : seq = 0 := by simpa [intake.2] using hs
    decide +kernel
  · obtain rfl : seq = 0 := by simpa [intake.1] using hs
    decide +kernel
  · exact absurd (show none = some h from hh) (by simp)

/-- A drop from a table that keeps to its rules, and an install that fails. -/
theorem witness_TableKept :
    (let s := { readingDocket (withProfile inRun) with pending := [.dropDocket 7 (record [(0, 1, 3), (16, 1, 4)])] }
    TableOk s.slots ∧ (∃ t, step s = .next t) ∧ (withProfile inRun).slots ≠ State.reset.slots)
    ∧ (TableOk loadingNine.slots ∧ LoadingOk loadingNine ∧ DocketsOk loadingNine) ∧ ∃ t, step loadingNine = .next t :=
  ⟨⟨table_ok rfl, ⟨_, rfl⟩, by decide +kernel⟩, loading_ok, _, rfl⟩

theorem tap_ok : TapOk tap27 := by
  refine ⟨⟨by decide, (fun h => absurd rfl h), (fun _ h => by cases h)⟩, by unfold LogOk; decide, by decide, by decide,
    by decide, fun h => ?_, fun id h => ?_, fun id h => ?_⟩
  · cases h
  · obtain rfl : lens4121 = id := by simpa [tap27] using h
    unfold IdentOk; decide
  · cases h

/-- Event 1 of section 2.7, heard from its first gap on, and closed within a later command. -/
theorem witness_TapKept :
    (let s := { withTap tap27 inRun with pending := [.lensMessage (line event1Bytes)] }
    TapOk s.tap ∧ ∃ t, step s = .next t)
    ∧ ReceiverOk (after (event1 1000300)) :=
  ⟨⟨tap_ok, _, rfl⟩, by simp [ReceiverOk, after, event1, heard, event1Bytes]⟩

/-- Counts across the wrap, POST at 64 ahead of the retired count, a cancel in progress. -/
theorem witness_CountsKept :
    let s := { inRun with
      win := { inRun.win with post := 58, cancel := some ⟨0, .working⟩ }
      intake := { inRun.intake with retired := 65530, taken := 65534 }, pending := [.markDocket] }
    CountsOk s ∧ ∃ t, step s = .next t := by
  refine ⟨⟨by decide, by decide, fun c h => ?_, by decide⟩, _, rfl⟩
  obtain rfl : (⟨0, .working⟩ : Cancel) = c := by simpa [inRun] using h
  decide

/-- A PARKED entry, a WAITING entry and a RUNNING RUSH entry, whose band's last write is outstanding. -/
def threeEntries : State :=
  waitsFor (.bandWrite .blue 0) (.write [(24576, [0, 0])])
    (working (.band [] 0 []) [entry 40 false .parked 1, entry 41 false .waiting 0, entry 43 true .running 0])

/-- The same with docket 40 the oldest not retired, docket 42 answered, docket 44 being read, POST at 64 ahead, and the
answer of docket 41 written. -/
def threeDockets : State :=
  let s := threeEntries
  { waitsFor (.answer .outcome) (.write [(14596, [5])]) s with
    win := { s.win with post := 104 }
    intake := { s.intake with retired := 40, taken := 45, map := 1#64 <<< 42, phase := .reading 44 }
    writer := { inHand := some ⟨{ answer 41 with outcome := .cancelled }, true, .writing, false, []⟩, waiting := [] } }

theorem dockets_ok : CountsOk threeDockets ∧ DocketsOk threeDockets := by
  have all : threeDockets.unanswered = [40, 41, 43, 44] := by decide +kernel
  have last : threeDockets.atIntake = [44] := by decide +kernel
  refine ⟨⟨by decide +kernel, by decide +kernel, fun c h => ?_, by decide +kernel⟩, by decide +kernel, fun seq h => ?_,
    fun seq h => ?_, by decide +kernel, fun h hh _ _ => ⟨entry 41 false .waiting 0, by decide +kernel, ?_⟩,
    by decide +kernel⟩
  · exact absurd (show none = some c from h) (by simp)
  · simp only [all, List.mem_cons, List.not_mem_nil, or_false] at h
    rcases h with rfl | rfl | rfl | rfl <;> decide +kernel
  · simp only [last, List.mem_singleton] at h
    subst h; decide +kernel
  · obtain rfl : _ = h := Option.some.inj hh
    rfl

/-- A band's end with a PARKED entry, a WAITING entry and a RUNNING RUSH entry; an answer's end with a docket at intake
and another answered before it. -/
theorem witness_WorkListKept :
    (let s := { threeEntries with pending := [.bandWriteAck 7] }
    WorkOk s ∧ BandsOk s ∧ (∀ e ∈ s.work, EntryOk e) ∧ ∃ t, step s = .next t)
    ∧ (let s := { threeDockets with pending := [.outcomeWriteAck 7] }
    CountsOk s ∧ DocketsOk s ∧ (∃ t, step s = .next t)
      ∧ (run (.outcomeWriteAck 7) s).unanswered = [40, 43, 44]) := by
  refine ⟨⟨by unfold WorkOk; decide +kernel, ⟨?_, fun _ _ _ _ => by decide +kernel, fun _ _ h => by cases h⟩,
    fun e h => ?_, _, rfl⟩, dockets_ok.1, dockets_ok.2, ⟨_, rfl⟩, by decide +kernel⟩
  · unfold FrameBandsOk; decide +kernel
  · have : e = entry 40 false .parked 1 ∨ e = entry 41 false .waiting 0 ∨ e = entry 43 true .running 0 := by
      simpa [threeEntries, waitsFor, working] using h
    rcases this with rfl | rfl | rfl <;> exact entry_ok _ _ _ _

/-- N = 4 with the counter at 3, and the warning condition present and latched. -/
theorem witness_SignallingKept :
    let s := { inRun with
      sig := { inRun.sig with
        grouping := 4, counter := 3, live := { inRun.sig.live with warning := true }
        latches := { inRun.sig.latches with heatWarn := true } }
      thermal := { code := 140, warning := true, shutdown := false }, pending := [.clearFaults] }
    GroupingOk s.sig ∧ ConditionsOk s ∧ ∃ t, step s = .next t :=
  ⟨by unfold GroupingOk; decide, ⟨rfl, (fun c h => by cases c <;> first | rfl | cases h), by decide⟩, _, rfl⟩

/-- A change by each row of the table. -/
theorem witness_OperatingStates :
    (exec .modeReopen inRun = .next (run .modeReopen inRun) ∧ exec .softReset inRun = .next (run .softReset inRun))
    ∧ (run (.setupReadReturn 7 (setupBytes 1)) readingSetup).win.state ≠ readingSetup.win.state
    ∧ (run (.temperatureSample 118000) inRun).win.state ≠ inRun.win.state
    ∧ (run .modeReopen inRun).win.state ≠ inRun.win.state
    ∧ (run (.memoryRequestTimeout 7) (readingDocket inRun)).win.state ≠ (readingDocket inRun).win.state
    ∧ (run .softReset inRun).win.state ≠ inRun.win.state := by
  exact ⟨⟨rfl, rfl⟩, by decide +kernel⟩

/-- An error recorded and a second one refused, and a first one. -/
theorem witness_FirstErrorKept :
    ((inRun.withError .postRange).sig.firstError = some .postRange
      ∧ exec .cancelComplete (inRun.withError .postRange) = .next (inRun.withError .postRange))
    ∧ inRun.sig.firstError = none ∧ exec .modeRun inRun = .next (run .modeRun inRun)
      ∧ (run .modeRun inRun).sig.firstError = some .modeState :=
  ⟨⟨rfl, rfl⟩, rfl, rfl, by decide +kernel⟩

end Sys2Proof.Tests
end

/-! PROOFS. The focal length of a BETWEEN lookup (R43): what `interpolate` returns between two samples in order, that a
log in order has a pair of adjacent samples around every stamp between its ends that none of its samples has, and the
rows of the lookup that interpolate. -/

namespace Sys2Proof.Machine

/-! ### Stamps in order -/

theorem earlier_iff {a b : Stamp} : earlier a b = true ↔ 0 < stampDiff a b := by simp [earlier]

/-- The order of stamps round the 2^32 is not total: a stamp and its opposite are not ordered. Two stamps that both
follow a third are. -/
theorem stampDiff_trichotomy_of_common_earlier {x y t : Stamp} (hxt : 0 < stampDiff x t) (hxy : 0 < stampDiff x y) :
    y = t ∨ 0 < stampDiff t y ∨ 0 < stampDiff y t := by
  have hsum : y - t = (y - x) - (t - x) := by ring
  have hneg : t - y = -(y - t) := by ring
  by_cases heq : y = t
  · exact .inl heq
  have hne : (y - t).toInt ≠ 0 := fun h => heq (sub_eq_zero.mp (BitVec.eq_of_toInt_eq h))
  right
  unfold stampDiff at *
  rw [hneg, BitVec.toInt_neg]
  rw [hsum, BitVec.toInt_sub] at hne ⊢
  generalize y - x = dy at *
  generalize t - x = dt at *
  have hltY := BitVec.toInt_lt (x := dy)
  have hltT := BitVec.toInt_lt (x := dt)
  norm_num at *
  rw [Int.bmod_eq_of_le (by omega) (by omega)] at hne ⊢
  rw [Int.bmod_eq_of_le (by omega) (by omega)]
  omega

/-! ### Interpolation between two samples -/

section Interpolate
variable {a b : Sample} {t : Stamp} (hat : 0 < stampDiff a.stamp t) (htb : 0 < stampDiff t b.stamp)
  (hab : 0 < stampDiff a.stamp b.stamp)
include hat htb hab

theorem stampDiff_lt_of_between : stampDiff a.stamp t < stampDiff a.stamp b.stamp := by
  rw [stampDiff_add _ _ _ hat htb hab]; omega

/-- R43's formula lies between the two focal lengths, so the conversion to a natural number loses nothing. -/
theorem interpolate_eq_and_between :
    (interpolate a b t : Int) = a.focal
        + nearestAway (((b.focal : Int) - a.focal) * stampDiff a.stamp t) (stampDiff a.stamp b.stamp).toNat
      ∧ min a.focal b.focal ≤ interpolate a b t ∧ interpolate a b t ≤ max a.focal b.focal := by
  have hlt := stampDiff_lt_of_between hat htb hab
  have hbounds := nearestAway_between a.focal b.focal
    (m := (stampDiff a.stamp t).toNat) (d := (stampDiff a.stamp b.stamp).toNat) (by omega) (by omega)
  rw [Int.toNat_of_nonneg hat.le] at hbounds
  unfold interpolate
  omega

theorem interpolate_isNearestAway :
    ∃ q : Int, (interpolate a b t : Int) = a.focal + q
      ∧ IsNearestAway q (((b.focal : Int) - a.focal) * stampDiff a.stamp t) (stampDiff a.stamp b.stamp) := by
  refine ⟨_, (interpolate_eq_and_between hat htb hab).1, ?_⟩
  have hspec := nearestAway_spec (((b.focal : Int) - a.focal) * stampDiff a.stamp t)
    (den := (stampDiff a.stamp b.stamp).toNat) (by omega)
  rwa [Int.toNat_of_nonneg hab.le] at hspec

end Interpolate

/-! ### The adjacent samples around a stamp -/

theorem straddling_cons_cons (x y : Sample) (rest : List Sample) (t : Stamp) :
    straddling (x :: y :: rest) t =
      if earlier x.stamp t && earlier t y.stamp then (x, y) :: straddling (y :: rest) t
      else straddling (y :: rest) t :=
  List.filter_cons

theorem getElem?_of_mem_straddling {log : List Sample} {t : Stamp} {a b : Sample} (h : (a, b) ∈ straddling log t) :
    ∃ i : Nat, log[i]? = some a ∧ log[i + 1]? = some b ∧ 0 < stampDiff a.stamp t ∧ 0 < stampDiff t b.stamp := by
  obtain ⟨hmem, hbetween⟩ := List.mem_filter.mp h
  obtain ⟨hat, htb⟩ := Bool.and_eq_true_iff.mp hbetween
  obtain ⟨i, hi⟩ := List.mem_iff_getElem?.mp hmem
  obtain ⟨ha, hb⟩ := List.getElem?_zip_eq_some.mp hi
  exact ⟨i, ha, by rwa [List.getElem?_tail] at hb, earlier_iff.mp hat, earlier_iff.mp htb⟩

theorem LogOk.stampDiff_pos_of_adjacent {log : List Sample} (h : LogOk log) {i : Nat} {a b : Sample}
    (ha : log[i]? = some a) (hb : log[i + 1]? = some b) : 0 < stampDiff a.stamp b.stamp := by
  obtain ⟨-, hchain, -⟩ := h
  obtain ⟨hi, rfl⟩ := List.getElem?_eq_some_iff.mp hb
  obtain ⟨_, rfl⟩ := List.getElem?_eq_some_iff.mp ha
  exact earlier_iff.mp (List.isChain_iff_getElem.mp hchain i hi)

/-- Going up the log from a sample earlier than the stamp, the samples stay earlier until one is later: none has the
stamp, and by the log's order none is its opposite. -/
theorem straddling_ne_nil {log : List Sample} {t : Stamp} {oldest newest : Sample}
    (hchain : log.IsChain (fun a b => earlier a.stamp b.stamp = true)) (hne : ∀ x ∈ log, x.stamp ≠ t)
    (hhead : log.head? = some oldest) (hlast : log.getLast? = some newest)
    (hlow : 0 < stampDiff oldest.stamp t) (hhigh : 0 < stampDiff t newest.stamp) : straddling log t ≠ [] := by
  induction log generalizing oldest with
  | nil => cases hhead
  | cons x rest ih =>
    obtain rfl : x = oldest := by simpa using hhead
    cases rest with
    | nil =>
      obtain rfl : x = newest := by simpa using hlast
      exact absurd hhigh (stampDiff_asymm _ _ hlow)
    | cons y ys =>
      obtain ⟨hxy, hchain'⟩ := List.isChain_cons_cons.mp hchain
      have hlater : 0 < stampDiff t y.stamp ∨ 0 < stampDiff y.stamp t :=
        (stampDiff_trichotomy_of_common_earlier hlow (earlier_iff.mp hxy)).resolve_left (hne y (by simp))
      rw [straddling_cons_cons]
      split
      · exact List.cons_ne_nil _ _
      · next hnot =>
        have hyt : 0 < stampDiff y.stamp t :=
          hlater.resolve_left fun hty => hnot (Bool.and_eq_true_iff.mpr ⟨earlier_iff.mpr hlow, earlier_iff.mpr hty⟩)
        exact ih hchain' (fun z hz => hne z (List.mem_cons_of_mem _ hz)) rfl (by simpa using hlast) hyt

/-! ### The lookup's BETWEEN -/

theorem eq_nil_of_freeMember_eq_none {α : Type} {n : Nat} {l : List α} (h : freeMember n l = none) : l = [] := by
  by_contra hl
  obtain ⟨x, -, hx⟩ := freeMember_spec n hl
  cases h.symm.trans hx

/-- R42's BETWEEN row. -/
theorem Tap.lookup_of_between_ends {tap : Tap} (n : Nat) {t : Stamp} {id : LensId} {oldest newest : Sample}
    (hid : tap.current = some id) (hhead : tap.log.head? = some oldest) (hlast : tap.log.getLast? = some newest)
    (hlow : 0 < stampDiff oldest.stamp t) (hhigh : 0 < stampDiff t newest.stamp) (hne : ∀ x ∈ tap.log, x.stamp ≠ t) :
    tap.lookup n t = { status := .between, focal := betweenFocal tap.log n t, ident := id } := by
  have hnone : tap.log.filter (fun x => x.stamp = t) = [] := by simpa using hne
  simp [Tap.lookup, hid, hhead, hlast, hnone, earlier, hlow, hhigh, stampDiff_asymm _ _ hlow]

/-- A lookup answers BETWEEN by R42's row or by the free status, and either way R43 finds a pair of samples. -/
theorem Tap.lookup_of_status_between {tap : Tap} {n : Nat} {t : Stamp} (hlog : LogOk tap.log)
    (h : (tap.lookup n t).status = .between) :
    ∃ id, tap.current = some id ∧ straddling tap.log t ≠ []
      ∧ tap.lookup n t = { status := .between, focal := betweenFocal tap.log n t, ident := id } := by
  obtain ⟨-, hchain, -⟩ := hlog
  unfold Tap.lookup at h ⊢
  split at h
  · next id oldest newest hid hhead hlast =>
    refine ⟨id, hid, ?_⟩
    split at h
    · cases h
    next hnotMissing =>
    rw [if_neg hnotMissing]
    split at h
    · cases h
    next hnoSample =>
    have hne : ∀ x ∈ tap.log, x.stamp ≠ t := by simpa using eq_nil_of_freeMember_eq_none hnoSample
    split at h
    · next hends =>
      obtain ⟨hlow, hhigh⟩ := Bool.and_eq_true_iff.mp hends
      exact ⟨straddling_ne_nil hchain hne hhead hlast (earlier_iff.mp hlow) (earlier_iff.mp hhigh), if_pos hends⟩
    next hnotEnds =>
    split at h
    · split at h <;> cases h
    next hnotNewer =>
    have hfree : freeStatus (!(straddling tap.log t).isEmpty) n = .between := h
    have hpair := (freeStatus_spec _ n).2 hfree
    exact ⟨by simpa using hpair, by rw [if_neg hnotEnds, if_neg hnotNewer]; simp only [hfree, if_true]⟩
  · cases h

/-- Settles O13: the formula by `interpolate_eq_and_between`, a BETWEEN answer by `Tap.lookup_of_status_between` (its
pair by `straddling_ne_nil`), the answer where there is one such pair by R42's BETWEEN row. -/
theorem interpolatedFocal : Obligations.InterpolatedFocal := by
  refine ⟨?formula, ?answer, ?onePair⟩
  case formula =>
    intro a b t hat htb hab ha ha' hb hb'
    obtain ⟨-, hmin, hmax⟩ := interpolate_eq_and_between hat htb hab
    exact ⟨stampDiff_lt_of_between hat htb hab, interpolate_isNearestAway hat htb hab, hmin, hmax,
      by omega, by omega, by omega⟩
  case answer =>
    intro tap n t hlog h
    obtain ⟨id, hid, hpairs, hlookup⟩ := Tap.lookup_of_status_between hlog h
    obtain ⟨⟨a, b⟩, hmem, hfocal⟩ := betweenFocal_spec n hpairs
    obtain ⟨i, ha, hb, hat, htb⟩ := getElem?_of_mem_straddling hmem
    exact ⟨i, a, b, id, hid, ha, hb, hat, htb, hlog.stampDiff_pos_of_adjacent ha hb, by rw [hlookup, hfocal]⟩
  case onePair =>
    intro tap n t id oldest newest a b hid hhead hlast hlow hhigh hne hpairs
    have honly : straddling tap.log t = [(a, b)] := hpairs
    rw [Tap.lookup_of_between_ends n hid hhead hlast hlow hhigh hne, betweenFocal, honly, freeMember_one]

end Sys2Proof.Machine

/-! PROOFS. The frame curve's parts: a station's value at a curve point (R52), the stations chosen for a focal length
(R53), their blend (R54), and an entry's fill values (R57). The recursions over knots and over stations are described
once each, by what they do behind members that lie below the argument (`evalKnots_append`, `chooseFrom_append`). -/

namespace Sys2Proof.Machine

/-! ### Lists in order of a key -/

theorem lt_of_isChain_append {α : Type} {key : α → Nat} {pre post : List α} {a : α}
    (h : (pre ++ a :: post).IsChain (fun x y => key x < key y)) : ∀ x ∈ pre, key x < key a := by
  have hpairs := List.pairwise_map.mp ((List.isChain_map key).mpr h).pairwise
  obtain ⟨-, -, hcross⟩ := List.pairwise_append.mp hpairs
  exact fun x hx => hcross x hx a List.mem_cons_self

theorem eq_append_of_getElem? {α : Type} {l : List α} {k : Nat} {a : α} (h : l[k]? = some a) :
    ∃ pre post, l = pre ++ a :: post ∧ pre.length = k := by
  obtain ⟨hk, rfl⟩ := List.getElem?_eq_some_iff.mp h
  refine ⟨l.take k, l.drop (k + 1), ?_, List.length_take_of_le hk.le⟩
  rw [← List.drop_eq_getElem_cons hk, List.take_append_drop]

theorem eq_append_of_adjacent {α : Type} {l : List α} {k : Nat} {a b : α} (ha : l[k]? = some a)
    (hb : l[k + 1]? = some b) : ∃ pre post, l = pre ++ a :: b :: post ∧ pre.length = k := by
  obtain ⟨pre, post, rfl, rfl⟩ := eq_append_of_getElem? ha
  have hhead : post.head? = some b := by simpa [List.getElem?_append, List.head?_eq_getElem?] using hb
  obtain ⟨rest, rfl⟩ := List.head?_eq_some_iff.mp hhead
  exact ⟨pre, rest, rfl, rfl⟩

/-! ### A station's value (R52) -/

theorem evalKnots_cons_cons (c : Channel) (a b : Knot) (rest : List Knot) (u : Nat) :
    evalKnots c (a :: b :: rest) u =
      if u < b.u then a.val.get c + nearestAway ((b.val.get c - a.val.get c) * ((u : Int) - a.u)) (b.u - a.u)
      else evalKnots c (b :: rest) u := rfl

/-- The knots before one that is at or below u have no say in the value at u. -/
theorem evalKnots_append (c : Channel) {pre rest : List Knot} {a : Knot} {u : Nat} (hpre : ∀ x ∈ pre, x.u ≤ u)
    (ha : a.u ≤ u) : evalKnots c (pre ++ a :: rest) u = evalKnots c (a :: rest) u := by
  induction pre with
  | nil => rfl
  | cons x xs ih =>
    have hskip : evalKnots c (x :: (xs ++ a :: rest)) u = evalKnots c (xs ++ a :: rest) u := by
      cases xs with
      | nil => exact if_neg (Nat.not_lt.mpr ha)
      | cons y ys => exact if_neg (Nat.not_lt.mpr (hpre y (by simp)))
    exact hskip.trans (ih fun z hz => hpre z (List.mem_cons_of_mem x hz))

section Knots
variable {ks : List Knot} {u : Nat} (hchain : ks.IsChain (fun a b => a.u < b.u))
include hchain

theorem evalKnots_of_last_le (c : Channel) {last : Knot} (hlast : ks.getLast? = some last) (h : last.u ≤ u) :
    evalKnots c ks u = last.val.get c := by
  obtain ⟨pre, rfl⟩ := List.getLast?_eq_some_iff.mp hlast
  exact evalKnots_append c (fun x hx => (lt_of_isChain_append hchain x hx).le.trans h) h

theorem evalKnots_of_between (c : Channel) {k : Nat} {a b : Knot} (ha : ks[k]? = some a) (hb : ks[k + 1]? = some b)
    (hau : a.u ≤ u) (hub : u < b.u) :
    evalKnots c ks u
      = a.val.get c + nearestAway ((b.val.get c - a.val.get c) * ((u : Int) - a.u)) (b.u - a.u) := by
  obtain ⟨pre, post, rfl, -⟩ := eq_append_of_adjacent ha hb
  have hpre := lt_of_isChain_append hchain
  rw [evalKnots_append c (fun x hx => (hpre x hx).le.trans hau) hau, evalKnots_cons_cons, if_pos hub]

theorem evalKnots_of_mem (c : Channel) {a : Knot} (ha : a ∈ ks) : evalKnots c ks a.u = a.val.get c := by
  obtain ⟨pre, post, rfl⟩ := List.append_of_mem ha
  rw [evalKnots_append c (fun x hx => (lt_of_isChain_append hchain x hx).le) le_rfl]
  cases post with
  | nil => rfl
  | cons b rest =>
    obtain ⟨hab, -⟩ := List.isChain_cons_cons.mp hchain.right_of_append
    rw [evalKnots_cons_cons, if_pos hab, sub_self, mul_zero, nearestAway_zero, add_zero]

end Knots

theorem evalKnots_of_between_bounds (c : Channel) {ks : List Knot} {k u : Nat} {a b : Knot}
    (hchain : ks.IsChain (fun a b => a.u < b.u)) (ha : ks[k]? = some a) (hb : ks[k + 1]? = some b) (hau : a.u ≤ u)
    (hub : u < b.u) :
    min (a.val.get c) (b.val.get c) ≤ evalKnots c ks u ∧ evalKnots c ks u ≤ max (a.val.get c) (b.val.get c) := by
  rw [evalKnots_of_between hchain c ha hb hau hub, ← Nat.cast_sub hau]
  exact nearestAway_between _ _ (by omega) (by omega)

/-- Going up the knots from one at or below u, the first one above u ends the pair around it. -/
theorem exists_knots_around {ks : List Knot} {u : Nat} {first last : Knot} (hhead : ks.head? = some first)
    (hlast : ks.getLast? = some last) (hfirst : first.u ≤ u) (hu : u < last.u) :
    ∃ (k : Nat) (a b : Knot), ks[k]? = some a ∧ ks[k + 1]? = some b ∧ a.u ≤ u ∧ u < b.u := by
  induction ks generalizing first with
  | nil => cases hhead
  | cons x rest ih =>
    obtain rfl : x = first := by simpa using hhead
    cases rest with
    | nil =>
      obtain rfl : x = last := by simpa using hlast
      omega
    | cons y ys =>
      by_cases hy : u < y.u
      · exact ⟨0, x, y, rfl, rfl, hfirst, hy⟩
      · obtain ⟨k, a, b, ha, hb, hau, hub⟩ := ih rfl (by simpa using hlast) (Nat.not_lt.mp hy)
        exact ⟨k + 1, a, b, ha, hb, hau, hub⟩

section KnotsOk
variable {ks : List Knot} (h : KnotsOk ks)
include h

theorem KnotsOk.exists_around {u : Nat} {last : Knot} (hlast : ks.getLast? = some last) (hu : u < last.u) :
    ∃ (k : Nat) (a b : Knot), ks[k]? = some a ∧ ks[k + 1]? = some b ∧ a.u ≤ u ∧ u < b.u := by
  obtain ⟨-, -, hzero, -, -⟩ := h
  obtain ⟨first, hhead, hfirst⟩ := Option.map_eq_some_iff.mp hzero
  exact exists_knots_around hhead hlast (by omega) hu

/-- R2's range of the knots' values carries over to every value of the station. -/
theorem KnotsOk.evalKnots_range (c : Channel) (u : Nat) : -16384 ≤ evalKnots c ks u ∧ evalKnots c ks u ≤ 16383 := by
  have ⟨htwo, _, _, hchain, hrange⟩ := h
  have hvalue : ∀ k ∈ ks, -16384 ≤ k.val.get c ∧ k.val.get c ≤ 16383 := fun k hk => (hrange k hk).2 c
  have hne : ks ≠ [] := List.ne_nil_of_length_pos (Nat.zero_lt_of_lt htwo)
  have hlast := List.getLast?_eq_some_getLast hne
  generalize ks.getLast hne = last at hlast
  rcases Nat.lt_or_ge u last.u with hu | hu
  · obtain ⟨k, a, b, ha, hb, hau, hub⟩ := h.exists_around hlast hu
    have hbounds := evalKnots_of_between_bounds c hchain ha hb hau hub
    have hva := hvalue a (List.mem_of_getElem? ha)
    have hvb := hvalue b (List.mem_of_getElem? hb)
    omega
  · rw [evalKnots_of_last_le hchain c hlast hu]
    exact hvalue last (List.mem_of_getLast? hlast)

end KnotsOk

/-- Settles O14: beyond the last knot, between two and on a knot by `evalKnots_append`, each way of cutting the list
giving one case; the pair by `KnotsOk.exists_around`, the range from these. -/
theorem stationEvaluation : Obligations.StationEvaluation := by
  intro ks c u h
  have ⟨_, _, _, hchain, _⟩ := h
  refine ⟨fun last => evalKnots_of_last_le hchain c, ?between, fun last => h.exists_around, ?onKnot,
    h.evalKnots_range c u⟩
  case between =>
    intro k a b ha hb hau hub
    refine ⟨⟨_, evalKnots_of_between hchain c ha hb hau hub, ?_⟩,
      evalKnots_of_between_bounds c hchain ha hb hau hub⟩
    have hspec := nearestAway_spec ((b.val.get c - a.val.get c) * ((u : Int) - a.u)) (den := b.u - a.u) (by omega)
    rwa [Nat.cast_sub (by omega)] at hspec
  case onKnot =>
    rintro a ha rfl
    exact evalKnots_of_mem hchain c ha

/-! ### The stations chosen (R53) -/

theorem chooseFrom_cons_cons (f j : Nat) (x y : Station) (rest : List Station) :
    chooseFrom f j (x :: y :: rest) =
      if f = x.focal then { lower := j, upper := j, weight := 0, clamped := false }
      else if f < y.focal then
        { lower := j, upper := j + 1, weight := 256 * (f - x.focal) / (y.focal - x.focal), clamped := false }
      else chooseFrom f (j + 1) (y :: rest) := rfl

/-- The stations before one that is at or below F are passed over. -/
theorem chooseFrom_append {f : Nat} (j : Nat) {pre rest : List Station} {a : Station}
    (hpre : ∀ x ∈ pre, x.focal < f) (ha : a.focal ≤ f) :
    chooseFrom f j (pre ++ a :: rest) = chooseFrom f (j + pre.length) (a :: rest) := by
  induction pre generalizing j with
  | nil => rfl
  | cons x xs ih =>
    have hx : f ≠ x.focal := (hpre x (by simp)).ne'
    have hskip : chooseFrom f j (x :: (xs ++ a :: rest)) = chooseFrom f (j + 1) (xs ++ a :: rest) := by
      cases xs with
      | nil => exact (if_neg hx).trans (if_neg (Nat.not_lt.mpr ha))
      | cons y ys => exact (if_neg hx).trans (if_neg (Nat.not_lt.mpr (hpre y (by simp)).le))
    rw [List.cons_append, hskip, ih (j + 1) fun z hz => hpre z (List.mem_cons_of_mem x hz), List.length_cons,
      Nat.add_right_comm, Nat.add_assoc]

theorem chooseStations_of_length_one {f : Nat} {stations : List Station} (h : stations.length = 1) :
    chooseStations f stations = { lower := 0, upper := 0, weight := 0, clamped := false } := by
  obtain ⟨x, rfl⟩ := List.length_eq_one_iff.mp h
  rfl

section Stations
variable {stations : List Station} {f : Nat} (htwo : 2 ≤ stations.length)
include htwo

theorem chooseStations_of_lt_head {x : Station} (hhead : stations.head? = some x) (hf : f < x.focal) :
    chooseStations f stations = { lower := 0, upper := 0, weight := 0, clamped := true } := by
  match stations, htwo with
  | a :: b :: rest, _ =>
    obtain rfl : a = x := by simpa using hhead
    exact if_pos hf

variable (hchain : stations.IsChain (fun a b => a.focal < b.focal))
include hchain

/-- From a station at or below F on, the choice is made among the stations from that one up. -/
theorem chooseStations_append {pre rest : List Station} {a : Station} (h : stations = pre ++ a :: rest)
    (ha : a.focal ≤ f) : chooseStations f stations = chooseFrom f pre.length (a :: rest) := by
  subst h
  have hpre := fun x hx => (lt_of_isChain_append hchain x hx).trans_le ha
  have hnotBelow : chooseStations f (pre ++ a :: rest) = chooseFrom f 0 (pre ++ a :: rest) := by
    match pre, rest, htwo with
    | [], b :: rest, _ => exact if_neg (Nat.not_lt.mpr ha)
    | [x], rest, _ => exact if_neg (Nat.not_lt.mpr (hpre x (by simp)).le)
    | x :: y :: ys, rest, _ => exact if_neg (Nat.not_lt.mpr (hpre x (by simp)).le)
  rw [hnotBelow, chooseFrom_append 0 hpre ha, Nat.zero_add]

theorem chooseStations_of_last_lt {x : Station} (hlast : stations.getLast? = some x) (hf : x.focal < f) :
    chooseStations f stations =
      { lower := stations.length - 1, upper := stations.length - 1, weight := 0, clamped := true } := by
  obtain ⟨pre, hpre⟩ := List.getLast?_eq_some_iff.mp hlast
  rw [chooseStations_append htwo hchain hpre hf.le, hpre]
  simp [chooseFrom, hf]

theorem chooseStations_of_eq {j : Nat} {x : Station} (hx : stations[j]? = some x) (hf : f = x.focal) :
    chooseStations f stations = { lower := j, upper := j, weight := 0, clamped := false } := by
  obtain ⟨pre, post, hsplit, rfl⟩ := eq_append_of_getElem? hx
  rw [chooseStations_append htwo hchain hsplit hf.ge]
  cases post <;> simp [chooseFrom, hf]

end Stations

theorem chooseStations_of_between {stations : List Station} {f j : Nat} {x y : Station}
    (hchain : stations.IsChain (fun a b => a.focal < b.focal)) (hx : stations[j]? = some x)
    (hy : stations[j + 1]? = some y) (hxf : x.focal < f) (hfy : f < y.focal) :
    chooseStations f stations =
      { lower := j, upper := j + 1, weight := 256 * (f - x.focal) / (y.focal - x.focal), clamped := false } := by
  obtain ⟨pre, post, hsplit, rfl⟩ := eq_append_of_adjacent hx hy
  have htwo : 2 ≤ stations.length := by simp [hsplit]; omega
  rw [chooseStations_append htwo hchain hsplit hxf.le, chooseFrom_cons_cons, if_neg hxf.ne', if_pos hfy]

theorem stationValue_of_getElem? {stations : List Station} {j : Nat} {x : Station} (h : stations[j]? = some x)
    (c : Channel) (u : Nat) : stationValue stations j c u = evalKnots c x.knots u := by
  simp [stationValue, h]

theorem blended_of_one_station {stations : List Station} {ch : StationChoice} {x : Station}
    (hone : ch.lower = ch.upper) (hx : stations[ch.lower]? = some x) (c : Channel) (u : Nat) :
    blended stations ch c u = evalKnots c x.knots u :=
  (if_pos hone).trans (stationValue_of_getElem? hx c u)

/-! ### What a corrected entry holds of the choice -/

theorem makeEntry_notes (seq : Count) (f : FrameFields) (curve : Rgb (List Int)) (cx cy : Int) (notes : BitVec 16)
    (result : ResultFields) :
    (makeEntry seq f curve cx cy notes result).notes = noteIf (fillClamped f) .fillClamped notes := rfl

section Corrected
variable (p : Params) (seq : Count) (f : FrameFields) (id : LensId) (focal slot : Nat) (pr : Profile)
  (notes : BitVec 16)

theorem correctedEntry_notes :
    (correctedEntry p seq f id focal slot pr notes).notes =
      noteIf (fillClamped f) .fillClamped
        (noteIf (curveSaturated pr (chooseStations focal pr.stations)) .curveSaturated
          (noteIf (chooseStations focal pr.stations).clamped .focalClamped notes)) := rfl

theorem correctedEntry_result :
    (correctedEntry p seq f id focal slot pr notes).result =
      { ident := some id, focal, slot := some slot
        stations := some ((chooseStations focal pr.stations).lower, (chooseStations focal pr.stations).upper)
        weight := (chooseStations focal pr.stations).weight } := rfl

end Corrected

/-- Settles O15: each place of F among the stations by `chooseStations_append`, the note by `correctedEntry_notes`. -/
theorem stationsChosen : Obligations.StationsChosen := by
  refine ⟨?choice, fun stations ch c u x hone hx => blended_of_one_station hone hx c u, ?note⟩
  case choice =>
    intro f stations hchain
    refine ⟨chooseStations_of_length_one, fun htwo => ⟨?below, ?above, ?equal, ?between⟩⟩
    case below => exact fun x => chooseStations_of_lt_head htwo
    case above => exact fun x => chooseStations_of_last_lt htwo hchain
    case equal => exact fun j x => chooseStations_of_eq htwo hchain
    case between =>
      intro j x y hx hy hxf hfy
      rw [chooseStations_of_between hchain hx hy hxf hfy]
      exact ⟨rfl, rfl, rfl⟩
  case note =>
    intro p seq f id focal slot pr notes
    simp [correctedEntry_notes, hasNote_if]

/-! ### The blend of two stations (R54) -/

theorem blendWeight_lt {f lo hi : Nat} (hlo : lo < f) (hhi : f < hi) : 256 * (f - lo) / (hi - lo) < 256 := by
  rw [Nat.div_lt_iff_lt_mul (by omega)]
  omega

theorem blended_of_two_stations {stations : List Station} {j w : Nat} {clamped : Bool} {x y : Station}
    (hx : stations[j]? = some x) (hy : stations[j + 1]? = some y) (c : Channel) (u : Nat) :
    blended stations { lower := j, upper := j + 1, weight := w, clamped } c u =
      evalKnots c x.knots u + nearestAway ((evalKnots c y.knots u - evalKnots c x.knots u) * w) 256 := by
  rw [← stationValue_of_getElem? hx, ← stationValue_of_getElem? hy]
  exact if_neg (Nat.succ_ne_self j).symm

/-- Settles O16: the choice by `chooseStations_of_between`, the value by `blended_of_two_stations`, its bounds by
`nearestAway_between` and the range of the two stations' values. -/
theorem blendedValue : Obligations.BlendedValue := by
  intro pr f j x y ⟨_, _, _, hchain, hstations, _⟩ hx hy hxf hfy ch
  have hch : ch = _ := chooseStations_of_between hchain hx hy hxf hfy
  have hweight := blendWeight_lt hxf hfy
  refine ⟨by rw [hch], by rw [hch]; exact Nat.le_of_lt_succ hweight, ?value, ?result⟩
  case value =>
    intro c u a b d
    have hd : d = a + nearestAway ((b - a) * ch.weight) 256 := by
      rw [hch, ← blended_of_two_stations hx hy c u, ← hch]
    have hbetween := nearestAway_between a b (m := ch.weight) (d := 256) (by rw [hch]; exact hweight.le) (by omega)
    obtain ⟨-, -, hxKnots⟩ := hstations x (List.mem_of_getElem? hx)
    obtain ⟨-, -, hyKnots⟩ := hstations y (List.mem_of_getElem? hy)
    have hrangeA : -16384 ≤ a ∧ a ≤ 16383 := hxKnots.evalKnots_range c u
    have hrangeB : -16384 ≤ b ∧ b ≤ 16383 := hyKnots.evalKnots_range c u
    rw [← hd] at hbetween
    refine ⟨⟨_, hd, nearestAway_spec _ (by omega)⟩, hbetween.1, hbetween.2, by omega, by omega, fun hzero => ?_⟩
    rw [hd, hzero, Nat.cast_zero, mul_zero, nearestAway_zero, add_zero]
  case result =>
    intro p seq fr id slot notes
    rw [correctedEntry_result]
    exact ⟨by rw [chooseStations_of_between hchain hx hy hxf hfy], rfl⟩

/-! ### The fill values (R57) -/

theorem Rgb.eq_iff_get {α : Type} {x y : Rgb α} : x = y ↔ ∀ c, x.get c = y.get c := by
  refine ⟨fun h c => h ▸ rfl, fun h => ?_⟩
  cases x
  cases y
  exact (Rgb.mk.injEq ..).mpr ⟨h .red, h .green, h .blue⟩

theorem frozenFill_of_edge {f : FrameFields} (h : f.edgeField = 0) : frozenFill f = f.fill := by
  simp [frozenFill, edgePolicy, h]

theorem frozenFill_get_of_fill {f : FrameFields} (h : f.edgeField ≠ 0) (c : Channel) :
    (frozenFill f).get c = min (f.fill.get c) f.wl := by
  simp only [frozenFill, edgePolicy, if_neg h]
  cases c <;> rfl

theorem fillClamped_of_edge {f : FrameFields} (h : f.edgeField = 0) : fillClamped f = false := by
  simp [fillClamped, frozenFill_of_edge h]

theorem fillClamped_iff_of_fill {f : FrameFields} (h : f.edgeField ≠ 0) :
    fillClamped f = true ↔ ∃ c, f.wl < f.fill.get c := by
  simp [fillClamped, Rgb.eq_iff_get, frozenFill_get_of_fill h]

theorem outSample_of_outside_fill {e : Entry} {p : Params} {c : Channel} {xo yo : Nat}
    (hout : inside e.geo (sourcePos e p c xo yo) = false) (hedge : e.edge = .fill) (input : Nat → Nat → Nat) :
    outSample e p c input xo yo = e.fill.get c := by
  have hnot : sampled e (sourcePos e p c xo yo) = false := by simp [sampled, hout, hedge]
  simp [outSample, hnot]

/-- Settles O18: the two values of the field by the lemmas on `frozenFill` and `fillClamped`, the outside sample by
`outSample_of_outside_fill`. -/
theorem fillValues : Obligations.FillValues := by
  intro seq f curve cx cy notes result e
  have hnotes : e.notes = noteIf (fillClamped f) .fillClamped notes := makeEntry_notes ..
  refine ⟨?edge, fun hfill => ?fill⟩
  case edge =>
    intro hedge
    refine ⟨if_pos hedge, frozenFill_of_edge hedge, ?_⟩
    rw [hnotes, fillClamped_of_edge hedge]
    rfl
  case fill =>
    have hget : ∀ c, e.fill.get c = min (f.fill.get c) f.wl := frozenFill_get_of_fill hfill
    have hpolicy : e.edge = .fill := if_neg hfill
    refine ⟨hpolicy, fun c => ?value, fun habove => ?clamped, fun hall => ?unclamped, fun p c input xo yo hout => ?out⟩
    case value =>
      rw [hget]
      split <;> omega
    case clamped =>
      rw [hnotes, (fillClamped_iff_of_fill hfill).mpr habove]
      rfl
    case unclamped =>
      have hnone : fillClamped f = false := by simpa using mt (fillClamped_iff_of_fill hfill).mp (by simpa using hall)
      rw [hnotes, hnone]
      rfl
    case out => exact ⟨outSample_of_outside_fill hout hpolicy input, hget c ▸ Nat.min_le_right _ _⟩

end Sys2Proof.Machine

/-! PROOFS. The remap computation (chapter 4): where an output pixel looks (R66, R69, R70), the delta read from a curve
(R67, R68), and the sample made of what it finds there (R71 to R75). -/

namespace Sys2Proof.Machine

/-! ### The place on the sensor and the scaled offset (R66, R69) -/

theorem sensorPos_nonneg {k : Nat} (hk : 1 ≤ k) (origin o : Nat) : 0 ≤ sensorPos k origin o := by
  have hproduct : (0 : Int) ≤ k * o := by positivity
  unfold sensorPos
  linarith

/-- A pixel of an output axis of `n / k` stands for `k` input pixels of the `n`, all within the sensor. -/
theorem sensorPos_le {k origin o n limit : Nat} (hk : 1 ≤ k) (ho : o < n / k) (hfit : origin + n ≤ limit) :
    sensorPos k origin o ≤ 16 * limit - 16 := by
  have hpixels : (o + 1) * k ≤ n := (Nat.le_div_iff_mul_le hk).mp ho
  zify at hpixels hfit hk
  unfold sensorPos
  linarith

theorem scaled_isNearestAway (offset d : Int) :
    IsNearestAway (scaled offset d) (offset * (65536 + d)) 65536 := nearestAway_spec _ (by omega)

theorem scaled_zero (offset : Int) : scaled offset 0 = offset := by
  unfold scaled nearestAway
  omega

theorem scaled_neg (offset d : Int) : scaled (-offset) d = -scaled offset d := by
  unfold scaled
  rw [neg_mul, nearestAway_neg]

/-! ### The delta read from a curve (R67, R68) -/

theorem normRadius_le (p : Params) (dx dy : Int) : normRadius p dx dy ≤ 8192 := Nat.min_le_left _ _

theorem normRadius_cast (p : Params) (dx dy : Int) :
    (normRadius p dx dy : Int)
      = min 8192 ((dx ^ 2 + dy ^ 2) * 4096 / (64 * ((p.wf : Int) ^ 2 + (p.hf : Int) ^ 2))) := by
  simp [normRadius, radiusSq, Config.uMax]

theorem deltaAt_of_div_eq {u : Nat} (h : u / 128 = 64) (curve : List Int) : deltaAt curve u = curve.getD 64 0 :=
  if_pos h

theorem deltaAt_of_div_ne {u : Nat} (h : u / 128 ≠ 64) (curve : List Int) :
    deltaAt curve u = curve.getD (u / 128) 0
      + nearestAway ((curve.getD (u / 128 + 1) 0 - curve.getD (u / 128) 0) * ((u % 128 : Nat) : Int)) 128 :=
  if_neg h

theorem deltaAt_between {u : Nat} (h : u / 128 ≠ 64) (curve : List Int) :
    min (curve.getD (u / 128) 0) (curve.getD (u / 128 + 1) 0) ≤ deltaAt curve u
      ∧ deltaAt curve u ≤ max (curve.getD (u / 128) 0) (curve.getD (u / 128 + 1) 0) := by
  rw [deltaAt_of_div_ne h]
  exact nearestAway_between _ _ (Nat.mod_lt u (by omega)).le (by omega)

theorem deltaAt_of_mod_eq_zero {u : Nat} (h : u % 128 = 0) (curve : List Int) :
    deltaAt curve u = curve.getD (u / 128) 0 := by
  by_cases hend : u / 128 = 64
  · rw [deltaAt_of_div_eq hend, hend]
  · rw [deltaAt_of_div_ne hend, h, Nat.cast_zero, mul_zero, nearestAway_zero, add_zero]

section EntryOk
variable {e : Entry} (h : EntryOk e) (c : Channel)
include h

theorem EntryOk.getD_range (i : Nat) : -16384 ≤ (e.curve.get c).getD i 0 ∧ (e.curve.get c).getD i 0 ≤ 16383 := by
  obtain ⟨hcurve, -⟩ := h
  rcases Nat.lt_or_ge i (e.curve.get c).length with hi | hi
  · rw [List.getD_eq_getElem _ _ hi]
    exact (hcurve c).2 _ (List.getElem_mem hi)
  · rw [List.getD_eq_default _ _ hi]
    decide

/-- The range of a curve's values carries over to every delta read from it. -/
theorem EntryOk.deltaAt_range (u : Nat) :
    -16384 ≤ deltaAt (e.curve.get c) u ∧ deltaAt (e.curve.get c) u ≤ 16383 := by
  by_cases hend : u / 128 = 64
  · rw [deltaAt_of_div_eq hend]
    exact h.getD_range c 64
  · have hbetween := deltaAt_between hend (e.curve.get c)
    have hlow := h.getD_range c (u / 128)
    have hhigh := h.getD_range c (u / 128 + 1)
    omega

end EntryOk

/-- Settles O22: the position by the definition, its bounds by `sensorPos_nonneg` and `sensorPos_le`, the offsets by the
lemmas on `scaled`, the scale's range by `EntryOk.deltaAt_range`. -/
theorem sourcePosition : Obligations.SourcePosition := by
  refine ⟨?pixel, scaled_neg, by decide⟩
  intro e p c xo yo px py d
  refine ⟨⟨scaled (px - e.cx) d, scaled (py - e.cy) d, scaled_isNearestAway _ _, scaled_isNearestAway _ _, rfl, ?exact⟩,
    ?range, ?column, ?row⟩
  case exact =>
    intro hd
    rw [hd]
    exact ⟨scaled_zero _, scaled_zero _⟩
  case range =>
    intro hok
    have hdelta : -16384 ≤ d ∧ d ≤ 16383 := hok.deltaAt_range c _
    omega
  case column => exact fun hk hxo hfit => ⟨sensorPos_nonneg hk _ _, sensorPos_le hk hxo hfit⟩
  case row => exact fun hk hyo hfit => ⟨sensorPos_nonneg hk _ _, sensorPos_le hk hyo hfit⟩

/-- Settles O23: u by `normRadius_cast`; the delta at the curve's end, within a step and on a curve point by the lemmas
on `deltaAt`, its range by `EntryOk.deltaAt_range`. -/
theorem curveReadAtRadius : Obligations.CurveReadAtRadius := by
  refine ⟨fun p dx dy => ⟨normRadius_le p dx dy, normRadius_cast p dx dy⟩, ?delta⟩
  intro e c u hok hu curve i f
  have hcurve : curve = e.curve.get c := by cases c <;> rfl
  rw [hcurve]
  refine ⟨by omega, ?atEnd, ?within, fun hf => deltaAt_of_mod_eq_zero hf _, hok.deltaAt_range c u⟩
  case atEnd => exact fun hi => ⟨by omega, by omega, deltaAt_of_div_eq hi _⟩
  case within =>
    intro hi
    exact ⟨⟨_, deltaAt_of_div_ne hi.ne _, nearestAway_spec _ (by omega)⟩, deltaAt_between hi.ne _⟩

/-! ### Inside and border (R71 to R73) -/

theorem inside_iff (g : Geometry) (qx qy : Int) :
    inside g (qx, qy) = true ↔ 0 ≤ qx ∧ qx ≤ 16 * ((g.w : Int) - 1) ∧ 0 ≤ qy ∧ qy ≤ 16 * ((g.h : Int) - 1) := by
  simp only [inside, Bool.and_eq_true, within_iff, and_assoc]

theorem sampled_iff (e : Entry) (q : Int × Int) : sampled e q = true ↔ inside e.geo q = true ∨ e.edge = .edge := by
  simp [sampled]

theorem borderPixel_iff (e : Entry) (p : Params) (xo yo : Nat) :
    borderPixel e p xo yo = true ↔ ∃ c, inside e.geo (sourcePos e p c xo yo) = false := by
  have hall : ∀ c : Channel, c ∈ [Channel.red, .green, .blue] := by
    intro c
    cases c <;> decide
  simp only [borderPixel, List.any_eq_true, hall, true_and, Bool.not_eq_true']

theorem nodup_bandRows (g : Geometry) (b : Nat) : (bandRows g b).Nodup :=
  List.nodup_range.map (add_right_injective (32 * b))

theorem toFinset_bandRows (g : Geometry) (b : Nat) :
    (bandRows g b).toFinset = Finset.Ico (32 * b) (min (32 * b + 32) g.ho) := by
  ext yo
  simp only [List.mem_toFinset, mem_bandRows, Finset.mem_Ico, lt_min_iff]

theorem countP_range_eq_card (test : Nat → Bool) (n : Nat) :
    (List.range n).countP test = ((Finset.range n).filter fun x => test x = true).card := by
  rw [← List.toFinset_range, ← List.toFinset_filter, List.toFinset_card_of_nodup (List.nodup_range.filter test),
    List.countP_eq_length_filter]

/-- R73's tally counts the band's pixels row by row, each once. -/
theorem bandTally_eq_sum (e : Entry) (p : Params) (b : Nat) :
    bandTally e p b = ∑ yo ∈ Finset.Ico (32 * b) (min (32 * b + 32) e.geo.ho),
      ((Finset.range e.geo.wo).filter fun xo => borderPixel e p xo yo = true).card := by
  rw [← toFinset_bandRows, List.sum_toFinset _ (nodup_bandRows e.geo b)]
  simp only [bandTally, bandPixels, List.countP_flatMap, ← countP_range_eq_card]
  congr 2
  funext yo
  exact List.countP_map

/-! ### The bilinear sample (R74) -/

theorem clampIndex_cast {n : Nat} (h : 1 ≤ n) (i : Int) : (clampIndex n i : Int) = max 0 (min ((n : Int) - 1) i) := by
  unfold clampIndex clampInt
  omega

/-- The four weights of R74 are the terms of (gx + fx)(gy + fy), both factors being 16. -/
theorem bilinear_weights_sum {fx fy : Nat} (hfx : fx ≤ 16) (hfy : fy ≤ 16) :
    (16 - fx) * (16 - fy) + fx * (16 - fy) + (16 - fx) * fy + fx * fy = 256 := by
  have hx : 16 - fx + fx = 16 := Nat.sub_add_cancel hfx
  have hy : 16 - fy + fy = 16 := Nat.sub_add_cancel hfy
  calc (16 - fx) * (16 - fy) + fx * (16 - fy) + (16 - fx) * fy + fx * fy
      = (16 - fx + fx) * (16 - fy + fy) := by ring
    _ = 256 := by rw [hx, hy]

theorem roundedMean_between {lo hi wa wb wc wd a b c d : Nat} (hweights : wa + wb + wc + wd = 256)
    (ha : lo ≤ a ∧ a ≤ hi) (hb : lo ≤ b ∧ b ≤ hi) (hc : lo ≤ c ∧ c ≤ hi) (hd : lo ≤ d ∧ d ≤ hi) :
    lo ≤ (wa * a + wb * b + wc * c + wd * d + 128) / 256
      ∧ (wa * a + wb * b + wc * c + wd * d + 128) / 256 ≤ hi := by
  have hlow : 256 * lo ≤ wa * a + wb * b + wc * c + wd * d := by
    rw [← hweights, add_mul, add_mul, add_mul]
    gcongr <;> omega
  have hhigh : wa * a + wb * b + wc * c + wd * d ≤ 256 * hi := by
    rw [← hweights, add_mul, add_mul, add_mul]
    gcongr <;> omega
  omega

theorem bilinear_between (g : Geometry) {input : Nat → Nat → Nat} (q : Int × Int) {lo hi : Nat}
    (h : ∀ x y, lo ≤ input x y ∧ input x y ≤ hi) : lo ≤ bilinear g input q ∧ bilinear g input q ≤ hi :=
  roundedMean_between (bilinear_weights_sum (by omega) (by omega)) (h _ _) (h _ _) (h _ _) (h _ _)

/-! ### The output sample (R72, R75) -/

theorem outSample_of_sampled {e : Entry} {p : Params} {c : Channel} {xo yo : Nat}
    (h : sampled e (sourcePos e p c xo yo) = true) (input : Nat → Nat → Nat) :
    outSample e p c input xo yo = min (bilinear e.geo input (sourcePos e p c xo yo)) e.wl := if_pos h

theorem outSample_of_not_sampled {e : Entry} {p : Params} {c : Channel} {xo yo : Nat}
    (h : ¬ sampled e (sourcePos e p c xo yo) = true) (input : Nat → Nat → Nat) :
    outSample e p c input xo yo = e.fill.get c := if_neg h

theorem edge_eq_fill_of_not_sampled {e : Entry} {q : Int × Int} (h : ¬ sampled e q = true) : e.edge = .fill := by
  cases hedge : e.edge with
  | edge => exact absurd ((sampled_iff e q).mpr (.inr hedge)) h
  | fill => rfl

theorem EntryOk.outSample_le_wl {e : Entry} (h : EntryOk e) (p : Params) (c : Channel) (input : Nat → Nat → Nat)
    (xo yo : Nat) : outSample e p c input xo yo ≤ e.wl := by
  obtain ⟨-, hfill⟩ := h
  by_cases hsampled : sampled e (sourcePos e p c xo yo) = true
  · rw [outSample_of_sampled hsampled]
    exact Nat.min_le_right _ _
  · rw [outSample_of_not_sampled hsampled]
    exact hfill (edge_eq_fill_of_not_sampled hsampled) c

/-- Settles O24: the border by `borderPixel_iff` and `bandTally_eq_sum`, the sample by `clampIndex_cast` and
`bilinear_between`, the white level by `EntryOk.outSample_le_wl`. -/
theorem outputWithinWhite : Obligations.OutputWithinWhite := by
  refine ⟨inside_iff, borderPixel_iff, bandTally_eq_sum, ?neighbours, ?output⟩
  case neighbours =>
    intro g input qx qy hw hh
    exact ⟨qx / 16, qy / 16, (qx % 16).toNat, (qy % 16).toNat, by omega, by omega, by omega, by omega,
      _, _, _, _, clampIndex_cast hw _, clampIndex_cast hw _, clampIndex_cast hh _, clampIndex_cast hh _, rfl⟩
  case output =>
    intro e p c input xo yo q v
    refine ⟨fun hsampled => ?clamped, fun hout hedge => outSample_of_outside_fill hout hedge input,
      fun hok => hok.outSample_le_wl p c input xo yo, fun lo hi => bilinear_between e.geo q⟩
    case clamped => exact outSample_of_sampled ((sampled_iff e q).mpr hsampled) input

end Sys2Proof.Machine

/-! PROOFS. The retired count (R121): how far one retire check moves it, that every answer makes the check, and which
steps set it and which keep it. -/

namespace Sys2Proof.Machine

/-! ### The retire check -/

theorem add_ofNat_ahead (r c : Count) : r + BitVec.ofNat 16 (ahead r c) = c := by
  rw [ahead, BitVec.ofNat_toNat, BitVec.setWidth_eq, BitVec.add_comm, BitVec.sub_add_cancel]

/-- `retireFrom_spec` with the fuel that brings the retired count to the taken count. -/
theorem Intake.retireCheck_spec (i : Intake) :
    ∃ k ≤ ahead i.retired i.taken, i.retireCheck = i.retired + BitVec.ofNat 16 k
      ∧ (∀ j < k, flagOf i.map (i.retired + BitVec.ofNat 16 j) = true)
      ∧ (i.retireCheck = i.taken ∨ flagOf i.map i.retireCheck = false) := by
  obtain ⟨k, hle, hmoved, hset, hstop⟩ := retireFrom_spec i.map (ahead i.retired i.taken) i.retired
  refine ⟨k, hle, hmoved, hset, ?_⟩
  rcases hstop with htaken | hclear
  · left
    calc i.retireCheck = i.retired + BitVec.ofNat 16 k := hmoved
      _ = i.taken := by rw [htaken, add_ofNat_ahead]
  · exact .inr hclear

/-- The check reads the map, the taken count and the retired count, none of which depends on the install flag. -/
theorem Intake.answered_retired (i : Intake) (seq : Count) (ofEntry : Bool) :
    (i.answered seq ofEntry).retired = Intake.retireCheck { i with map := (i.answered seq ofEntry).map } := rfl

/-! ### Where the retired count is set or kept -/

theorem retired_after_reset {s t : State} (h : exec .powerOnReset s = .next t ∨ exec .softReset s = .next t) :
    t.intake.retired = 0 := by
  rcases h with hpower | hsoft
  · rw [← Host.Outcome.next.inj hpower]
    rfl
  · rw [← Host.Outcome.next.inj hsoft, State.softReset_intake]
    rfl

theorem loadOptions_retired (b : SetupBlock) (s : State) : (loadOptions b s).intake.retired = 0 := rfl

theorem enterRun_retired (b : SetupBlock) (s : State) : (enterRun b s).intake.retired = 0 := by
  rw [enterRun, State.askReport_intake, loadOptions_retired]

theorem exchangeFault_retired (s : State) : (exchangeFault s).intake.retired = s.intake.retired := by
  unfold exchangeFault
  split
  · rw [State.enterHalted_intake]
  · rfl

/-- Whether the part is quiescent and reopens or is not and reports the error, the intake is as before. -/
theorem modeReopen_intake {s t : State} (h : exec .modeReopen s = .next t) : t.intake = s.intake := by
  rw [← Host.Outcome.next.inj h]
  split
  · rfl
  · exact State.error_intake s _

theorem retired_after_exchangeFault {s t : State} {tag : Nat} (h : exec (.exchangeFault tag) s = .next t) :
    t.intake.retired = s.intake.retired := by
  rw [← Host.Outcome.next.inj h]
  exact onReply_keeps (P := fun u => u.intake.retired = s.intake.retired) rfl (fun _ => rfl)
    fun _ u hu => (exchangeFault_retired u).trans hu

/-- Settles O43: the advance by `Intake.retireCheck_spec`, the check of an answer by `Intake.answered_retired`, the
steps that set the count and those that keep it each by their own lemma. -/
theorem retireCheck : Obligations.RetireCheck := by
  refine ⟨Intake.retireCheck_spec, Intake.answered_retired, fun _ _ => retired_after_reset, enterRun_retired, ?kept⟩
  case kept =>
    rintro s t tag (hreopen | hfault)
    · rw [modeReopen_intake hreopen]
    · exact retired_after_exchangeFault hfault

end Sys2Proof.Machine

/-! PROOFS. The signalling unit (chapter 7): what each of its operations keeps of the grouping counter (R139, R143) and
of the latches behind the live conditions (R146, R149, R150), and that every step keeps them. -/

namespace Sys2Proof.Machine

/-! ### Effects of commands -/

section Effects
variable (r : Request) (s : State)

theorem effect_quietTimerExpiry :
    effect .quietTimerExpiry r s = if s.tap.quietDue then startQuiet s else s := rfl

theorem effect_modeRun : effect .modeRun r s = if s.win.state = .setup ∧ s.win.setupRead = false then
    { s with
      win := { s.win with setupRead := true }
      port := s.port.issueAll [(.setupBlock, .read s.win.xbase.toNat Config.setupReadBytes)] }
  else s.error .modeState := rfl

theorem effect_modeReopen : effect .modeReopen r s = if s.win.state = .run ∧ s.quiescent then
    { s with win := { s.win with state := .setup, locked := none } } else s.error .reopenBusy := rfl

theorem effect_postWrite (value : BitVec 32) : effect (.postWrite value) r s = if s.working then
    (if s.postInRange (value.setWidth 16) then acceptPost (value.setWidth 16) s else s.error .postRange)
  else s.error .postState := rfl

theorem effect_xbaseWrite (value : BitVec 32) :
    effect (.xbaseWrite value) r s = if s.win.state = .setup ∧ s.win.setupRead = false then
      (if value.toNat % 4096 = 0 then { s with win := { s.win with xbase := value } } else s.error .xbaseAlign)
    else s.error .xbaseLocked := rfl

theorem effect_takeDocket : effect .takeDocket r s = if s.canTake then
    { s with
      intake := s.intake.advance (.reading s.intake.taken)
      port := s.port.issueAll [(.docket, .read (docketAddr s.win.xbase s.intake.taken) Config.docketReadBytes)] }
  else s := rfl

theorem effect_markDocket : effect .markDocket r s = if s.canMark then
    { s with
      intake := s.intake.advance .writing
      writer := s.writer.add [.intake (markedAnswer s.intake.taken)] }
  else s := rfl

theorem effect_outcomeTakeUp : effect .outcomeTakeUp r s = if s.working then takeUpAnswer s else s := rfl

theorem effect_reportWriteTakeUp : effect .reportWriteTakeUp r s =
    if s.working && !s.report.writing && s.report.pending then takeUpReport s else s := rfl

theorem effect_reportWriteAck (tag : Nat) : effect (.reportWriteAck tag) r s =
    if r.use = .report .trailing then reportAcked s else s := rfl

theorem effect_cancelComplete : effect .cancelComplete r s = if s.win.cancel.map Cancel.stage = some .reported then
    { s with
      win := { s.win with cancel := none }
      sig := { s.sig with flags := { s.sig.flags with cancel := true } } }
  else s := rfl

end Effects

theorem whileReading_keeps {P : State → Prop} {k : Count → State → State} {s : State} (hs : P s)
    (hk : ∀ seq, s.intake.phase = .reading seq → P (k seq s)) : P (whileReading k s) := by
  unfold whileReading
  split
  · exact hk _ ‹_›
  · exact hs

/-! ### The grouping counter (R139 to R142) -/

theorem GroupingOk.of_eq {g g' : Signalling} (h : GroupingOk g) (hgrouping : g'.grouping = g.grouping)
    (hcounter : g'.counter = g.counter) : GroupingOk g' := by
  unfold GroupingOk at *
  rwa [hgrouping, hcounter]

theorem groupingOk_of_counter_zero {g : Signalling} (hmem : g.grouping ∈ [0, 1, 2, 4, 8, 16]) (hzero : g.counter = 0) :
    GroupingOk g := ⟨hmem, by omega⟩

theorem GroupingOk.announce {g : Signalling} (h : GroupingOk g) : GroupingOk g.announce :=
  groupingOk_of_counter_zero h.1 rfl

theorem GroupingOk.count {g : Signalling} (h : GroupingOk g) (hpos : 0 < g.grouping) : GroupingOk g.count := by
  unfold Signalling.count
  split
  · exact h.announce
  · next hne =>
    obtain ⟨hmem, hlt⟩ := h
    exact ⟨hmem, .inl (by dsimp only; omega)⟩

theorem GroupingOk.idleFlush {g : Signalling} (h : GroupingOk g) (b : Bool) : GroupingOk (g.idleFlush b) := by
  unfold Signalling.idleFlush
  split
  · exact h.announce
  · exact h

theorem GroupingOk.update {g : Signalling} (h : GroupingOk g) (rush : Bool) (o : DocketOutcome) (b : Bool) :
    GroupingOk (g.update rush o b) := by
  unfold Signalling.update
  split
  · apply GroupingOk.idleFlush
    exact h.of_eq rfl rfl
  · split
    · next hcounts => exact (h.count hcounts.2).idleFlush b
    · exact h.idleFlush b

theorem groupingValid_iff {n : Nat} : groupingValid n = true ↔ n ∈ [0, 1, 2, 4, 8, 16] := by simp [groupingValid]

/-- A counter that the new N does not announce stays below it, or is 0 with N. -/
theorem groupingOk_setGrouping (g : Signalling) {n : Nat} (hn : groupingValid n = true) :
    GroupingOk (g.setGrouping n) := by
  have hmem := groupingValid_iff.mp hn
  unfold Signalling.setGrouping
  split
  · exact groupingOk_of_counter_zero hmem rfl
  · exact ⟨hmem, by dsimp only; omega⟩

/-! ### The latches behind the live conditions (R146) -/

/-- R146: the latch that follows a condition is set while the condition is present. -/
def Signalling.Covered (g : Signalling) : Prop := ∀ c, g.live.get c = true → g.latches.get c.latch = true

theorem Latches.get_set (l : Latches) (k k' : Latch) : (l.set k).get k' = (l.get k' || decide (k = k')) := by
  cases k <;> cases k' <;> simp [Latches.set, Latches.get]

theorem Live.get_set (l : Live) (v : Bool) (c c' : Condition) :
    (l.set v c).get c' = if c = c' then v else l.get c' := by
  cases c <;> cases c' <;> rfl

theorem Signalling.Covered.of_eq {g g' : Signalling} (h : g.Covered) (hlive : g'.live = g.live)
    (hlatches : g'.latches = g.latches) : g'.Covered := by
  unfold Signalling.Covered at *
  rwa [hlive, hlatches]

theorem Signalling.Covered.latch {g : Signalling} (h : g.Covered) (k : Latch) : (g.latch k).Covered := by
  intro c hc
  rw [show (g.latch k).latches = g.latches.set k from rfl, Latches.get_set, h c hc, Bool.true_or]

theorem Signalling.Covered.conditionStart {g : Signalling} (h : g.Covered) (c : Condition) :
    (g.conditionStart c).Covered := by
  intro c' hc'
  replace hc' : (g.live.set true c).get c' = true := hc'
  show (g.latches.set c.latch).get c'.latch = true
  rw [Live.get_set] at hc'
  rw [Latches.get_set]
  split at hc'
  · next heq => simp [heq]
  · rw [h c' hc', Bool.true_or]

theorem Signalling.Covered.conditionEnd {g : Signalling} (h : g.Covered) (c : Condition) :
    (g.conditionEnd c).Covered := by
  intro c' hc'
  replace hc' : (g.live.set false c).get c' = true := hc'
  rw [Live.get_set] at hc'
  split at hc'
  · cases hc'
  · exact h c' hc'

theorem Signalling.clearFaults_latch_get (g : Signalling) (c : Condition) :
    g.clearFaults.latches.get c.latch = (g.latches.get c.latch && g.live.get c) := by cases c <;> rfl

theorem Signalling.Covered.clearFaults {g : Signalling} (h : g.Covered) : g.clearFaults.Covered := by
  intro c hc
  replace hc : g.live.get c = true := hc
  rw [Signalling.clearFaults_latch_get, h c hc, hc, Bool.and_true]

@[simp] theorem Signalling.rejudge_live (g : Signalling) (c : Condition) : (g.rejudge c).live = g.live := by
  unfold Signalling.rejudge
  split <;> rfl

theorem Signalling.rejudge_latch_get (g : Signalling) (c : Condition) (k : Latch) :
    (g.rejudge c).latches.get k = (g.latches.get k || (g.live.get c && decide (c.latch = k))) := by
  unfold Signalling.rejudge
  split
  · next hlive => rw [hlive, Bool.true_and]; exact Latches.get_set _ _ _
  · next hlive => rw [Bool.not_eq_true] at hlive; rw [hlive, Bool.false_and, Bool.or_false]

theorem Signalling.softReset_covered (g : Signalling) : g.softReset.Covered := by
  intro c hc
  unfold Signalling.softReset at hc ⊢
  simp only [Signalling.rejudge_live] at hc
  simp only [Signalling.rejudge_latch_get, Signalling.rejudge_live]
  cases c <;> rw [hc] <;> simp [Condition.latch]

@[simp] theorem Signalling.softReset_live (g : Signalling) : g.softReset.live = g.live := by
  simp [Signalling.softReset]

theorem Signalling.rejudge_grouping (g : Signalling) (c : Condition) : (g.rejudge c).grouping = g.grouping := by
  unfold Signalling.rejudge
  split <;> rfl

theorem Signalling.rejudge_counter (g : Signalling) (c : Condition) : (g.rejudge c).counter = g.counter := by
  unfold Signalling.rejudge
  split <;> rfl

theorem GroupingOk.softReset {g : Signalling} (h : GroupingOk g) : GroupingOk g.softReset := by
  apply groupingOk_of_counter_zero
  · simpa only [Signalling.softReset, Signalling.rejudge_grouping] using h.1
  · simp only [Signalling.softReset, Signalling.rejudge_counter]

/-! ### The signalling unit beside the owners of the live conditions -/

/-- What `SignallingKept` says of a state. -/
def SignalsOk (s : State) : Prop := GroupingOk s.sig ∧ ConditionsOk s

theorem signalsOk_iff {s : State} : SignalsOk s ↔ GroupingOk s.sig ∧ s.sig.Covered
    ∧ s.sig.live = { quiet := s.tap.quiet, warning := s.thermal.warning, shutdown := s.thermal.shutdown }
    ∧ (s.thermal.shutdown = true → s.thermal.warning = true) :=
  ⟨fun ⟨hg, hl, hc, ht⟩ => ⟨hg, hc, hl, ht⟩, fun ⟨hg, hc, hl, ht⟩ => ⟨hg, hl, hc, ht⟩⟩

section Kept
variable {s t : State} (h : SignalsOk s)
include h

/-- A change of the signalling unit alone that keeps the copies of the live conditions. -/
theorem SignalsOk.of_sig (hgrouping : GroupingOk s.sig → GroupingOk t.sig) (hcovered : s.sig.Covered → t.sig.Covered)
    (hlive : t.sig.live = s.sig.live) (hquiet : t.tap.quiet = s.tap.quiet) (hthermal : t.thermal = s.thermal) :
    SignalsOk t := by
  obtain ⟨hg, hc, hl, ht⟩ := signalsOk_iff.mp h
  exact signalsOk_iff.mpr ⟨hgrouping hg, hcovered hc, by rw [hlive, hl, hquiet, hthermal], by rwa [hthermal]⟩

theorem SignalsOk.of_eq (hsig : t.sig = s.sig) (hquiet : t.tap.quiet = s.tap.quiet) (hthermal : t.thermal = s.thermal) :
    SignalsOk t :=
  h.of_sig (by rw [hsig]; exact id) (by rw [hsig]; exact id) (by rw [hsig]) hquiet hthermal

/-- Neither the counter nor the latches change where only flags, the first-error code, the interrupt enable or the
options do. -/
theorem SignalsOk.of_same (hgrouping : t.sig.grouping = s.sig.grouping) (hcounter : t.sig.counter = s.sig.counter)
    (hlatches : t.sig.latches = s.sig.latches) (hlive : t.sig.live = s.sig.live) (hquiet : t.tap.quiet = s.tap.quiet)
    (hthermal : t.thermal = s.thermal) : SignalsOk t :=
  h.of_sig (·.of_eq hgrouping hcounter) (·.of_eq hlive hlatches) hlive hquiet hthermal

theorem SignalsOk.error (e : ErrorCode) : SignalsOk (s.error e) := h.of_same rfl rfl rfl rfl rfl rfl

theorem SignalsOk.latch (k : Latch) : SignalsOk { s with sig := s.sig.latch k } :=
  h.of_sig (·.of_eq rfl rfl) (·.latch k) rfl rfl rfl

theorem SignalsOk.startQuiet : SignalsOk (startQuiet s) := by
  obtain ⟨hg, hc, hl, ht⟩ := signalsOk_iff.mp h
  refine signalsOk_iff.mpr ⟨hg.of_eq rfl rfl, hc.conditionStart .quiet, ?_, ht⟩
  show s.sig.live.set true .quiet = _
  rw [hl]
  rfl

theorem SignalsOk.endQuiet : SignalsOk (endQuiet s) := by
  unfold Machine.endQuiet
  split
  · obtain ⟨hg, hc, hl, ht⟩ := signalsOk_iff.mp h
    refine signalsOk_iff.mpr ⟨hg.of_eq rfl rfl, hc.conditionEnd .quiet, ?_, ht⟩
    show s.sig.live.set false .quiet = _
    rw [hl]
    rfl
  · exact h.of_eq rfl rfl rfl

end Kept

theorem Signalling.reset_covered : Signalling.reset.Covered := by
  intro c hc
  cases c <;> cases hc

theorem signalsOk_reset : SignalsOk State.reset :=
  signalsOk_iff.mpr ⟨groupingOk_of_counter_zero List.mem_cons_self rfl, Signalling.reset_covered, rfl, nofun⟩

/-! ### The lens tap -/

@[simp] theorem Tap.offer_quiet (t : Tap) (arrival : Stamp) (focal : Nat) :
    (t.offer arrival focal).quiet = t.quiet := by
  unfold Tap.offer
  split <;> rfl

@[simp] theorem Tap.track_quiet (t : Tap) (m : Message) : (t.track m).quiet = t.quiet := by
  unfold Tap.track
  split <;> simp [Tap.logReport, Tap.confirm]

theorem SignalsOk.track {s : State} (h : SignalsOk s) (m : Message) : SignalsOk (track m s) := by
  unfold Machine.track
  split
  · exact (h.latch .lensChange).of_eq rfl (Tap.track_quiet _ m) rfl
  · exact h.of_eq rfl (Tap.track_quiet _ m) rfl

theorem SignalsOk.closeRun {s : State} (h : SignalsOk s) (run : Run) : SignalsOk (closeRun run s) := by
  unfold Machine.closeRun
  split
  · exact h.of_eq rfl rfl rfl
  · next m _ =>
    unfold hearMessage
    dsimp only
    split
    · exact h.endQuiet.of_eq rfl rfl rfl
    · have hnew : SignalsOk { Machine.endQuiet s with tap := { (Machine.endQuiet s).tap with last := some m.key } } :=
        h.endQuiet.of_eq rfl rfl rfl
      split
      · exact hnew.track m
      · exact hnew

theorem SignalsOk.hearEvent {s : State} (h : SignalsOk s) (e : LineEvent) : SignalsOk (hearEvent s e) := by
  obtain ⟨-, he⟩ | ⟨run, -, -, -, he⟩ := hearEvent_cases s e <;> rw [he]
  · exact h.of_eq rfl rfl rfl
  · apply SignalsOk.closeRun
    exact h.of_eq rfl rfl rfl

/-! ### The thermal monitor -/

/-- R155, R156: the warning condition starts and ends below the shutdown condition's thresholds, so a code that leaves
the shutdown condition present leaves the warning condition present. -/
theorem judge_warning_of_shutdown {warning shutdown : Bool} (h : shutdown = true → warning = true) {code : BitVec 8}
    (hshut : judge shutdown Config.shutdownStart Config.shutdownEnd code = true) :
    judge warning Config.warnStart Config.warnEnd code = true := by
  unfold judge Config.shutdownStart Config.shutdownEnd at hshut
  unfold judge Config.warnStart Config.warnEnd
  cases warning <;> cases shutdown <;> simp at h hshut ⊢ <;> omega

theorem Signalling.follow_cases (g : Signalling) (c : Condition) (before after : Bool) :
    (before = after ∧ g.follow c before after = g)
      ∨ (after = true ∧ g.follow c before after = g.conditionStart c)
      ∨ (after = false ∧ g.follow c before after = g.conditionEnd c) := by
  unfold Signalling.follow
  split
  · exact .inl ⟨‹_›, rfl⟩
  · cases after
    · exact .inr (.inr ⟨rfl, rfl⟩)
    · exact .inr (.inl ⟨rfl, rfl⟩)

theorem GroupingOk.follow {g : Signalling} (h : GroupingOk g) (c : Condition) (before after : Bool) :
    GroupingOk (g.follow c before after) := by
  obtain ⟨-, he⟩ | ⟨-, he⟩ | ⟨-, he⟩ := g.follow_cases c before after <;> rw [he]
  exacts [h, h.of_eq rfl rfl, h.of_eq rfl rfl]

theorem Signalling.Covered.follow {g : Signalling} (h : g.Covered) (c : Condition) (before after : Bool) :
    (g.follow c before after).Covered := by
  obtain ⟨-, he⟩ | ⟨-, he⟩ | ⟨-, he⟩ := g.follow_cases c before after <;> rw [he]
  exacts [h, h.conditionStart c, h.conditionEnd c]

theorem Live.set_get (l : Live) (c : Condition) : l.set (l.get c) c = l := by cases c <;> rfl

/-- The copy of a condition that agreed with it before agrees with it afterwards. -/
theorem Signalling.follow_live {g : Signalling} {c : Condition} {before : Bool} (h : g.live.get c = before)
    (after : Bool) : (g.follow c before after).live = g.live.set after c := by
  obtain ⟨heq, he⟩ | ⟨heq, he⟩ | ⟨heq, he⟩ := g.follow_cases c before after <;> rw [he]
  · rw [← heq, ← h, Live.set_get]
  · rw [heq]; rfl
  · rw [heq]; rfl

theorem judgeShutdown_sig (s : State) : (judgeShutdown s).sig = s.sig.follow .shutdown s.thermal.shutdown
    (judge s.thermal.shutdown Config.shutdownStart Config.shutdownEnd s.thermal.code) := by
  simp [judgeShutdown]

theorem judgeShutdown_thermal (s : State) : (judgeShutdown s).thermal = { s.thermal with
    shutdown := judge s.thermal.shutdown Config.shutdownStart Config.shutdownEnd s.thermal.code } := by
  simp [judgeShutdown]

theorem thermalSample_sig (t : Int) (s : State) : (thermalSample t s).sig =
    (s.sig.follow .warning s.thermal.warning
        (judge s.thermal.warning Config.warnStart Config.warnEnd (temperatureCode t))).follow
      .shutdown s.thermal.shutdown
        (judge s.thermal.shutdown Config.shutdownStart Config.shutdownEnd (temperatureCode t)) := by
  rw [thermalSample, judgeShutdown_sig]
  rfl

theorem thermalSample_thermal (t : Int) (s : State) : (thermalSample t s).thermal =
    { code := temperatureCode t
      warning := judge s.thermal.warning Config.warnStart Config.warnEnd (temperatureCode t)
      shutdown := judge s.thermal.shutdown Config.shutdownStart Config.shutdownEnd (temperatureCode t) } := by
  rw [thermalSample, judgeShutdown_thermal]
  rfl

theorem SignalsOk.thermalSample {s : State} (h : SignalsOk s) (t : Int) : SignalsOk (thermalSample t s) := by
  obtain ⟨hg, hc, hl, ht⟩ := signalsOk_iff.mp h
  refine signalsOk_iff.mpr ?_
  rw [thermalSample_sig, thermalSample_thermal, thermalSample_tap]
  refine ⟨(hg.follow _ _ _).follow _ _ _, (hc.follow _ _ _).follow _ _ _, ?_, judge_warning_of_shutdown ht⟩
  rw [Signalling.follow_live, Signalling.follow_live, hl]
  · rfl
  · rw [hl]; rfl
  · rw [Signalling.follow_live, hl]
    · rfl
    · rw [hl]; rfl

/-! ### RUN entry and the OPTIONS docket -/

theorem SignalsOk.loadParameters {s : State} (h : SignalsOk s) (b : SetupBlock) : SignalsOk (loadParameters b s) := by
  unfold Machine.loadParameters
  dsimp only
  split
  · exact SignalsOk.startQuiet (h.of_eq rfl rfl rfl)
  · exact h.of_eq rfl rfl rfl

@[simp] theorem Signalling.setGrouping_live (g : Signalling) (n : Nat) : (g.setGrouping n).live = g.live := by
  unfold Signalling.setGrouping
  split <;> rfl

@[simp] theorem Signalling.setGrouping_latches (g : Signalling) (n : Nat) : (g.setGrouping n).latches = g.latches := by
  unfold Signalling.setGrouping
  split <;> rfl

theorem SignalsOk.loadOptions {s : State} (h : SignalsOk s) {b : SetupBlock} (hb : groupingValid b.grouping = true) :
    SignalsOk (loadOptions b s) :=
  h.of_sig (fun _ => (groupingOk_setGrouping _ hb).of_eq rfl rfl)
    (·.of_eq (Signalling.setGrouping_live _ _) (Signalling.setGrouping_latches _ _))
    (Signalling.setGrouping_live _ _) rfl rfl

theorem SetupBlock.valid_iff (b : SetupBlock) (xbase : BitVec 32) : b.valid xbase = true ↔
    b.layout = 1 ∧ b.low % 4096 = 0 ∧ b.high % 4096 = 0 ∧ b.low < b.high
    ∧ b.low ≤ xbase.toNat ∧ xbase.toNat + 20480 ≤ b.high
    ∧ b.wf % 16 = 0 ∧ 256 ≤ b.wf ∧ b.wf ≤ 8192 ∧ b.hf % 16 = 0 ∧ 256 ≤ b.hf ∧ b.hf ≤ 6144
    ∧ 8 ≤ b.quietMs ∧ b.quietMs ≤ 250 ∧ b.latency ≤ 2000 ∧ b.grouping ∈ [0, 1, 2, 4, 8, 16]
    ∧ b.missing ≤ 1 ∧ b.stale ≤ 1 := by
  have hwindow : inWindow b.params xbase.toNat Config.exchangeBytes = true
      ↔ b.low ≤ xbase.toNat ∧ xbase.toNat + 20480 ≤ b.high := decide_eq_true_iff
  simp only [SetupBlock.valid, Bool.and_eq_true, decide_eq_true_eq, hwindow, groupingValid_iff, and_assoc]

theorem SetupBlock.grouping_of_valid {b : SetupBlock} {xbase : BitVec 32} (h : b.valid xbase = true) :
    groupingValid b.grouping = true := by
  obtain ⟨-, -, -, -, -, -, -, -, -, -, -, -, -, -, -, hgrouping, -, -⟩ := (b.valid_iff xbase).mp h
  exact groupingValid_iff.mpr hgrouping

theorem SignalsOk.setupReturned {s : State} (h : SignalsOk s) (bytes : List Byte) :
    SignalsOk (setupReturned bytes s) := by
  unfold Machine.setupReturned
  split
  · split
    · next hvalid =>
      have hgrouping := SetupBlock.grouping_of_valid hvalid
      exact ((h.loadParameters _).loadOptions hgrouping).of_eq rfl rfl rfl
    · exact SignalsOk.error (h.of_eq rfl rfl rfl) _
  · exact h

theorem optionValid_zero_of_firstInvalid {bytes : List Byte} (h : firstInvalidOption bytes = none)
    (hpresent : optionPresent bytes 0 = true) : groupingValid (optionValue bytes 0) = true := by
  have hall := List.find?_eq_none.mp h 0 (by simp)
  simpa [hpresent, optionValid] using hall

theorem applyOptions_grouping_counter (bytes : List Byte) (g : Signalling) :
    let g' := if optionPresent bytes 0 then g.setGrouping (optionValue bytes 0) else g
    (applyOptions bytes g).grouping = g'.grouping ∧ (applyOptions bytes g).counter = g'.counter
      ∧ (applyOptions bytes g).latches = g'.latches ∧ (applyOptions bytes g).live = g'.live := by
  unfold applyOptions
  dsimp only
  generalize (if optionPresent bytes 0 then g.setGrouping (optionValue bytes 0) else g) = g'
  refine ⟨?_, ?_, ?_, ?_⟩ <;> split <;> split <;> split <;> rfl

theorem SignalsOk.optionsReturned {s : State} (h : SignalsOk s) (bytes : List Byte) (seq : Count) :
    SignalsOk (optionsReturned bytes seq s) := by
  have setGrouping : ∀ n, groupingValid n = true → SignalsOk { s with sig := s.sig.setGrouping n } := fun n hn =>
    h.of_sig (fun _ => groupingOk_setGrouping _ hn)
      (·.of_eq (Signalling.setGrouping_live _ _) (Signalling.setGrouping_latches _ _)) (Signalling.setGrouping_live _ _)
      rfl rfl
  unfold Machine.optionsReturned
  split
  · next hvalid =>
    obtain ⟨hgrouping, hcounter, hlatches, hlive⟩ := applyOptions_grouping_counter bytes s.sig
    have hfirst : SignalsOk { s with
        sig := if optionPresent bytes 0 then s.sig.setGrouping (optionValue bytes 0) else s.sig } := by
      split
      · next hpresent => exact setGrouping _ (optionValid_zero_of_firstInvalid hvalid hpresent)
      · exact h
    exact hfirst.of_same hgrouping hcounter hlatches hlive rfl rfl
  · split
    · exact (setGrouping 0 (by decide)).of_eq rfl rfl rfl
    · exact h.of_eq rfl rfl rfl

/-! ### Faults and the signalling update -/

theorem SignalsOk.imageFault {s : State} (h : SignalsOk s) : SignalsOk (imageFault s) := by
  unfold Machine.imageFault withInstall
  split
  · exact (h.latch .memory).of_eq rfl rfl rfl
  · exact h

theorem SignalsOk.bandFailed {s : State} (h : SignalsOk s) : SignalsOk (bandFailed s) := by
  unfold Machine.bandFailed
  split
  · exact (h.latch .memory).of_eq (State.stopBand_sig _ _) (by rw [State.stopBand_tap]) (State.stopBand_thermal _ _)
  · exact h

theorem SignalsOk.exchangeFault {s : State} (h : SignalsOk s) : SignalsOk (exchangeFault s) := by
  unfold Machine.exchangeFault
  split
  · exact (h.error .exchangeFault).of_eq rfl rfl rfl
  · exact h

theorem SignalsOk.setupFault {s : State} (h : SignalsOk s) : SignalsOk (setupFault s) :=
  SignalsOk.error (h.of_eq rfl rfl rfl) _

theorem SignalsOk.busError {s : State} (h : SignalsOk s) (r : Request) : SignalsOk (busError r s) := by
  unfold Machine.busError
  split
  case h_1 => exact h.setupFault
  case h_3 => exact h.imageFault
  case h_4 | h_5 => exact h.bandFailed
  all_goals exact h.exchangeFault

@[simp] theorem Signalling.idleFlush_live (g : Signalling) (b : Bool) : (g.idleFlush b).live = g.live := by
  unfold Signalling.idleFlush
  split <;> rfl

@[simp] theorem Signalling.idleFlush_latches (g : Signalling) (b : Bool) : (g.idleFlush b).latches = g.latches := by
  unfold Signalling.idleFlush
  split <;> rfl

theorem Signalling.update_live (g : Signalling) (rush : Bool) (o : DocketOutcome) (b : Bool) :
    (g.update rush o b).live = g.live := by
  simp only [Signalling.update, Signalling.idleFlush_live, Signalling.count, Signalling.announce]
  repeat' (first | rfl | split)

theorem Signalling.update_latches (g : Signalling) (rush : Bool) (o : DocketOutcome) (b : Bool) :
    (g.update rush o b).latches = g.latches := by
  simp only [Signalling.update, Signalling.idleFlush_latches, Signalling.count, Signalling.announce]
  repeat' (first | rfl | split)

theorem SignalsOk.signalAnswer {s : State} (h : SignalsOk s) (x : InHand) : SignalsOk (signalAnswer x s) := by
  have hsig : (Machine.signalAnswer x s).sig
      = s.sig.update x.answer.rush x.answer.outcome (x.metPost || s.retiredIsPost) := by simp [Machine.signalAnswer]
  refine h.of_sig (fun hg => ?_) (fun hc => ?_) ?_ (by simp) (by simp) <;> rw [hsig]
  · exact hg.update _ _ _
  · exact hc.of_eq (Signalling.update_live _ _ _ _) (Signalling.update_latches _ _ _ _)
  · exact Signalling.update_live _ _ _ _

theorem withInHand_keeps {P : State → Prop} {stage : Stage} {k : InHand → State → State} {s : State} (hs : P s)
    (hk : ∀ h, s.writer.inHand = some h → h.stage = stage → P (k h s)) : P (withInHand stage k s) := by
  unfold withInHand
  split
  · split
    · exact hk _ ‹_› ‹_›
    · exact hs
  · exact hs

/-! ### Register writes -/

theorem SignalsOk.acceptPost {s : State} (h : SignalsOk s) (new : Count) : SignalsOk (acceptPost new s) := by
  have hsig : (Machine.acceptPost new s).sig = s.sig.idleFlush (s.intake.retired == new) := by simp [Machine.acceptPost]
  refine h.of_sig (fun hg => ?_) (fun hc => ?_) ?_ (by simp) (by simp) <;> rw [hsig]
  · exact hg.idleFlush _
  · exact hc.of_eq (Signalling.idleFlush_live _ _) (Signalling.idleFlush_latches _ _)
  · exact Signalling.idleFlush_live _ _

theorem SignalsOk.cancelRequest {s : State} (h : SignalsOk s) : SignalsOk (cancelRequest s) := by
  unfold Machine.cancelRequest
  split
  · split
    · exact h
    · exact h.of_eq (by simp) (by simp) (by simp)
  · exact h.error _

/-! ### Every effect -/

theorem SignalsOk.effect {s : State} (h : SignalsOk s) (c : Instr) (r : Request) : SignalsOk (effect c r s) := by
  cases c with
  | powerOnReset => exact signalsOk_reset.of_eq rfl rfl rfl
  | tick | eraYoungClear | sync => exact h.of_eq rfl rfl rfl
  | otherRegisterWrite => exact h
  | lensMessage line => exact hearLine_keeps (fun u e hu => hu.hearEvent e) h line
  | quietTimerExpiry =>
    rw [effect_quietTimerExpiry]
    split
    · exact h.startQuiet
    · exact h
  | temperatureSample t => exact h.thermalSample _
  | ack | errorClear | irqEnableUpdate => exact h.of_same rfl rfl rfl rfl rfl rfl
  | clearFaults => exact h.of_sig (·.of_eq rfl rfl) (·.clearFaults) rfl rfl rfl
  | cancel => exact h.cancelRequest
  | modeRun =>
    rw [effect_modeRun]
    split
    · exact h.of_eq rfl rfl rfl
    · exact h.error _
  | modeReopen =>
    rw [effect_modeReopen]
    split
    · exact h.of_eq rfl rfl rfl
    · exact h.error _
  | softReset =>
    exact h.of_sig (·.softReset) (fun _ => Signalling.softReset_covered _) (Signalling.softReset_live _) rfl rfl
  | postWrite value =>
    rw [effect_postWrite]
    split
    · split
      · exact h.acceptPost _
      · exact h.error _
    · exact h.error _
  | xbaseWrite value =>
    rw [effect_xbaseWrite]
    split
    · split
      · exact h.of_eq rfl rfl rfl
      · exact h.error _
    · exact h.error _
  | setupReadReturn tag bytes => exact h.setupReturned bytes
  | setupReadFault => exact h.setupFault
  | takeDocket | markDocket | reportWriteTakeUp =>
    simp only [effect_takeDocket, effect_markDocket, effect_reportWriteTakeUp]
    split <;> exact h.of_eq rfl rfl rfl
  | frameDocket | installDocket | dropDocket | trimNudge | trimSet | badTrimMode | badKindDocket =>
    exact whileReading_keeps h fun _ _ => h.of_eq (by simp) (by simp) (by simp)
  | optionsDocket tag bytes => exact whileReading_keeps h fun seq _ => h.optionsReturned bytes seq
  | installValidation | bandReadReturn | bandWriteAck | outcomeWriteAck | reportWriteAck =>
    exact h.of_eq (by simp [Machine.effect]) (by simp [Machine.effect]) (by simp [Machine.effect])
  | imageReadFault => exact h.imageFault
  | resolveFrame => exact h.of_eq (resolvePlaced_sig s) (by rw [← resolvePlaced_tap s]; rfl) (resolvePlaced_thermal s)
  | pick => exact h.of_eq (State.pick_sig s) (by rw [← State.pick_tap s]; rfl) (State.pick_thermal s)
  | bandBusError => exact h.bandFailed
  | memoryRequestTimeout => exact h.busError r
  | drainEnd => exact h.of_eq (drainEnd_sig s) (by rw [← drainEnd_tap s]; rfl) (drainEnd_thermal s)
  | outcomeTakeUp =>
    rw [effect_outcomeTakeUp]
    split
    · exact h.of_eq (by simp) (by simp) (by simp)
    · exact h
  | signallingUpdate => exact withInHand_keeps h fun x _ _ => h.signalAnswer x
  | exchangeFault => exact h.exchangeFault
  | cancelComplete =>
    rw [effect_cancelComplete]
    split
    · exact h.of_same rfl rfl rfl rfl rfl rfl
    · exact h

/-- Settles O58: every operation of the signalling unit keeps the counter's rule and sets the latch of a condition it
starts (`SignalsOk.effect`), and so does every step. -/
theorem signallingKept : Obligations.SignallingKept := fun _ _ hgrouping hconditions hstep =>
  step_keeps (P := SignalsOk) (fun _ _ h => h.of_eq rfl rfl rfl) (fun _ _ h => h.of_eq rfl rfl rfl)
    (fun c r _ h => h.effect c r) ⟨hgrouping, hconditions⟩ hstep

end Sys2Proof.Machine

/-! PROOFS. The lens tap (chapter 2): what each event of the lens line keeps of the receiver (R24), what an accepted
message holds (R25), what the tracker keeps of the log and the identities (R29 to R38), and that every step keeps the
tap within its rules. -/

namespace Sys2Proof.Machine

/-! ### The receiver (R24) -/

theorem receiverOk_afterGap : ReceiverOk .afterGap := ⟨le_rfl, fun h => absurd rfl h, nofun⟩

section Hear
variable {r : Receiver} (now : Stamp)

theorem Receiver.hear_idle_of_inByte (h : r.phase = .inByte) (bits : Nat) : r.hear now (.idle bits) = (r, none) :=
  if_pos h

theorem Receiver.hear_idle_of_lt (h : r.phase ≠ .inByte) {bits : Nat} (hbits : r.idleBits + bits < 32) :
    r.hear now (.idle bits) = ({ r with phase := .idle, idleBits := r.idleBits + bits }, none) :=
  (if_neg h).trans (if_pos hbits)

theorem Receiver.hear_idle_of_le (h : r.phase ≠ .inByte) {bits : Nat} (hbits : 32 ≤ r.idleBits + bits) :
    r.hear now (.idle bits) = (.afterGap, r.run) :=
  (if_neg h).trans (if_neg (Nat.not_lt.mpr hbits))

theorem Receiver.hear_start_of_idle (h : r.phase = .idle) : r.hear now .start =
    ({ phase := .inByte, idleBits := 0
       run := if r.idleBits = 32 then some { bytes := [], crossedSync := false } else r.run }, none) :=
  if_pos h

theorem Receiver.hear_start_of_ne (h : r.phase ≠ .idle) : r.hear now .start = (r, none) := if_neg h

theorem Receiver.hear_stop_of_inByte (h : r.phase = .inByte) (samples : BitVec 9) : r.hear now (.stop samples) =
    ({ phase := if samples.getLsbD 8 then .idle else .heldLow, idleBits := 0
       run := r.run.map fun x => { x with bytes := x.bytes ++ [{ samples, stopTime := now }] } }, none) :=
  if_pos h

theorem Receiver.hear_stop_of_ne (h : r.phase ≠ .inByte) (samples : BitVec 9) :
    r.hear now (.stop samples) = (r, none) := if_neg h

end Hear

theorem ReceiverOk.hear {r : Receiver} (h : ReceiverOk r) (now : Stamp) (e : LineEvent) :
    ReceiverOk (r.hear now e).1 := by
  have ⟨hbits, hphase, hrun⟩ := h
  cases e with
  | idle bits =>
    by_cases hp : r.phase = .inByte
    · rwa [Receiver.hear_idle_of_inByte now hp]
    rcases Nat.lt_or_ge (r.idleBits + bits) 32 with hlt | hge
    · rw [Receiver.hear_idle_of_lt now hp hlt]
      exact ⟨hlt.le, fun h => absurd rfl h, fun run hr => ⟨hlt, fun hb => absurd ((hrun run hr).2 hb) hp⟩⟩
    · rw [Receiver.hear_idle_of_le now hp hge]
      exact receiverOk_afterGap
  | start =>
    by_cases hp : r.phase = .idle
    · rw [Receiver.hear_start_of_idle now hp]
      exact ⟨Nat.zero_le _, fun _ => rfl, fun run _ => ⟨Nat.zero_lt_succ _, fun _ => rfl⟩⟩
    · rwa [Receiver.hear_start_of_ne now hp]
  | stop samples =>
    by_cases hp : r.phase = .inByte
    · rw [Receiver.hear_stop_of_inByte now hp]
      refine ⟨Nat.zero_le _, fun _ => rfl, fun run hr => ⟨Nat.zero_lt_succ _, fun hb => ?_⟩⟩
      obtain ⟨before, -, rfl⟩ := Option.map_eq_some_iff.mp hr
      exact absurd hb (by simp)
    · rwa [Receiver.hear_stop_of_ne now hp]

theorem ReceiverOk.mark {r : Receiver} (h : ReceiverOk r) : ReceiverOk r.mark := by
  obtain ⟨hbits, hphase, hrun⟩ := h
  refine ⟨hbits, hphase, fun run hr => ?_⟩
  obtain ⟨before, hbefore, rfl⟩ := Option.map_eq_some_iff.mp hr
  exact hrun before hbefore

/-! ### An accepted message (R25) -/

/-- The seven checks of R25, each on the run as it was heard. -/
theorem acceptRun_eq_some_iff {run : Run} {m : Message} : acceptRun run = some m ↔
    let v := run.bytes.map heardValue
    run.crossedSync = false ∧ run.bytes.any framingError = false ∧ v.length = 8 ∧ v.getD 0 0 = Config.marker
      ∧ v.sum = 255 ∧ (fieldAt v 1 2 ≠ 0 ∧ fieldAt v 1 2 ≠ 65535) ∧ ¬ (fieldAt v 3 1 / 16 = 1 ∧ fieldAt v 4 2 = 0)
      ∧ messageOf v (arrivalOf run.bytes) = m := by
  simp only [acceptRun, Option.ite_none_left_eq_some, Bool.not_eq_true, ne_eq, not_not]
  simp only [messageOf, Option.some.injEq, not_or]

theorem message_ok_of_acceptRun {run : Run} {m : Message} (h : acceptRun run = some m) :
    IdentOk m.ident ∧ (m.kind = 1 → 1 ≤ m.focal) ∧ m.focal ≤ 65535 := by
  obtain ⟨-, -, -, -, -, ⟨hzero, hmax⟩, hfocal, rfl⟩ := acceptRun_eq_some_iff.mp h
  have hmodel := fieldAt_lt (run.bytes.map heardValue) 1 2
  have hlt := fieldAt_lt (run.bytes.map heardValue) 4 2
  exact ⟨⟨by dsimp only [messageOf]; omega, by dsimp only [messageOf]; omega, by dsimp only [messageOf]; omega⟩,
    fun hkind => by dsimp only [messageOf] at hkind ⊢; omega, by dsimp only [messageOf]; omega⟩

/-! ### The log (R36, R38) -/

theorem logOk_nil : LogOk [] := ⟨Nat.zero_le _, .nil, nofun⟩

theorem earlier_of_notLater {log : List Sample} {stamp : Stamp} (h : notLater log stamp = false) {newest : Sample}
    (hlast : log.getLast? = some newest) : earlier newest.stamp stamp = true := by
  simpa [notLater, hlast] using h

/-- R38: what is left of the log when the oldest sample gives way is in order, and the offered sample follows the
newest. -/
theorem LogOk.appendSample {log : List Sample} (h : LogOk log) {x : Sample} (hlater : notLater log x.stamp = false)
    (hfocal : 1 ≤ x.focal ∧ x.focal ≤ 65535) : LogOk (appendSample log x) := by
  obtain ⟨hlength, hchain, hrange⟩ := h
  refine ⟨?_, ?_, fun y hy => ?_⟩
  · simp only [Machine.appendSample, Config.logDepth, List.length_append, List.length_drop, List.length_singleton]
    omega
  · refine List.isChain_append.mpr ⟨hchain.drop _, .singleton x, fun y hy z hz => ?_⟩
    obtain rfl : x = z := by simpa using hz
    rw [List.getLast?_drop] at hy
    split at hy
    · cases hy
    · exact earlier_of_notLater hlater hy
  · rcases List.mem_append.mp hy with hy | hy
    · exact hrange y (List.mem_of_mem_drop hy)
    · obtain rfl := List.mem_singleton.mp hy
      exact hfocal

/-! ### The tap -/

/-- The tap depends on the fields that `TapOk` speaks of. -/
theorem TapOk.of_eq {t u : Tap} (h : TapOk t) (hrx : u.rx = t.rx) (hlog : u.log = t.log)
    (hlatency : u.latency = t.latency)
    (hquiet : u.quietMs = t.quietMs) (hcurrent : u.current = t.current) (hcandidate : u.candidate = t.candidate) :
    TapOk u := by
  unfold TapOk at *
  rwa [hrx, hlog, hlatency, hquiet, hcurrent, hcandidate]

theorem TapOk.with_rx {t : Tap} (h : TapOk t) {rx : Receiver} (hrx : ReceiverOk rx) : TapOk { t with rx } :=
  ⟨hrx, h.2⟩

theorem TapOk.with_candidate {t : Tap} (h : TapOk t) {id : LensId} (hid : IdentOk id) (hne : t.current ≠ some id) :
    TapOk { t with candidate := some id } := by
  obtain ⟨hrx, hlog, hlatency, hlow, hhigh, hnone, hcurrent, -⟩ := h
  refine ⟨hrx, hlog, hlatency, hlow, hhigh, hnone, hcurrent, fun id' hid' => ?_⟩
  obtain rfl : id = id' := Option.some.inj hid'
  exact ⟨hid, hne⟩

theorem TapOk.without_candidate {t : Tap} (h : TapOk t) : TapOk { t with candidate := none } := by
  obtain ⟨hrx, hlog, hlatency, hlow, hhigh, hnone, hcurrent, -⟩ := h
  exact ⟨hrx, hlog, hlatency, hlow, hhigh, hnone, hcurrent, nofun⟩

theorem TapOk.emptied {t : Tap} (h : TapOk t) : TapOk { t with log := [] } := by
  obtain ⟨hrx, -, hlatency, hlow, hhigh, -, hcurrent, hcandidate⟩ := h
  exact ⟨hrx, logOk_nil, hlatency, hlow, hhigh, fun _ => rfl, hcurrent, hcandidate⟩

theorem TapOk.offer {t : Tap} (h : TapOk t) (hcurrent : t.current ≠ none) (arrival : Stamp) {focal : Nat}
    (hfocal : 1 ≤ focal ∧ focal ≤ 65535) : TapOk (t.offer arrival focal) := by
  unfold Tap.offer
  split
  · exact h.of_eq rfl rfl rfl rfl rfl rfl
  · next hoffered =>
    obtain ⟨-, hlater⟩ : t.early arrival = false ∧ notLater t.log (t.stampOf arrival) = false := by
      simpa using hoffered
    obtain ⟨hrx, hlog, hlatency, hlow, hhigh, -, hid, hcandidate⟩ := h
    exact ⟨hrx, hlog.appendSample hlater hfocal, hlatency, hlow, hhigh, fun hnone => absurd hnone hcurrent, hid,
      hcandidate⟩

theorem Tap.trackStep_logReport {t : Tap} {id : LensId} (h : t.trackStep id = .logReport) : t.current = some id := by
  unfold Tap.trackStep at h
  split at h
  · assumption
  · split at h
    · cases h
    · split at h <;> cases h

theorem Tap.trackStep_ne_logReport {t : Tap} {id : LensId} (h : t.trackStep id ≠ .logReport) : t.current ≠ some id :=
  fun hcurrent => h (if_pos hcurrent)

/-- R32: the confirmed identity becomes the current one, with an empty log and no candidate. -/
theorem TapOk.confirmed {t : Tap} (h : TapOk t) {id : LensId} (hid : IdentOk id) :
    TapOk { t with log := [], current := some id, candidate := none } := by
  obtain ⟨hrx, -, hlatency, hlow, hhigh, -, -, -⟩ := h
  refine ⟨hrx, logOk_nil, hlatency, hlow, hhigh, nofun, fun id' hid' => ?_, nofun⟩
  obtain rfl : id = id' := Option.some.inj hid'
  exact hid

theorem TapOk.track {t : Tap} (h : TapOk t) {m : Message} (hid : IdentOk m.ident)
    (hfocal : 1 ≤ m.focal ∧ m.focal ≤ 65535) : TapOk (t.track m) := by
  unfold Tap.track
  split
  · next hstep =>
    unfold Tap.logReport
    refine TapOk.offer ?_ (fun hnone => ?_) _ hfocal
    · exact h.without_candidate.of_eq rfl rfl rfl rfl rfl rfl
    · cases (Tap.trackStep_logReport hstep).symm.trans hnone
  · next hstep => exact h.with_candidate hid (Tap.trackStep_ne_logReport (by simp [hstep]))
  · unfold Tap.confirm
    refine TapOk.offer ?_ (Option.some_ne_none _) _ hfocal
    exact (h.confirmed hid).of_eq rfl rfl rfl rfl rfl rfl
  · next hstep =>
    exact (h.with_candidate hid (Tap.trackStep_ne_logReport (by simp [hstep]))).of_eq rfl rfl rfl rfl rfl rfl

/-! ### The events of the lens line -/

theorem track_tap (m : Message) (s : State) : (track m s).tap = s.tap.track m := by
  unfold track
  split <;> rfl

theorem endQuiet_tap (s : State) : (endQuiet s).tap = { s.tap with quietTimer := 0, quiet := false } := by
  unfold endQuiet
  split
  · rfl
  · next hquiet => rw [Bool.not_eq_true] at hquiet; rw [← hquiet]

theorem closeRun_keeps_tapOk {s : State} (h : TapOk s.tap) (run : Run) : TapOk (closeRun run s).tap := by
  unfold closeRun
  split
  · exact h.of_eq rfl rfl rfl rfl rfl rfl
  · next m hm =>
    obtain ⟨hid, hpositive, hmax⟩ := message_ok_of_acceptRun hm
    have hended : TapOk (endQuiet s).tap := by
      rw [endQuiet_tap]
      exact h.of_eq rfl rfl rfl rfl rfl rfl
    unfold hearMessage
    dsimp only
    split
    · exact hended.of_eq rfl rfl rfl rfl rfl rfl
    · split
      · next hkind =>
        rw [track_tap]
        refine TapOk.track ?_ hid ⟨hpositive hkind, hmax⟩
        exact hended.of_eq rfl rfl rfl rfl rfl rfl
      · exact hended.of_eq rfl rfl rfl rfl rfl rfl

theorem hearEvent_keeps_tapOk {s : State} (h : TapOk s.tap) (e : LineEvent) : TapOk (hearEvent s e).tap := by
  obtain ⟨-, he⟩ | ⟨run, -, -, -, he⟩ := hearEvent_cases s e <;> rw [he]
  · exact h.with_rx (h.1.hear _ _)
  · apply closeRun_keeps_tapOk
    exact h.with_rx receiverOk_afterGap

/-! ### RUN entry -/

theorem TapOk.with_parameters {t : Tap} (h : TapOk t) {latency quietMs : Nat} (hlatency : latency ≤ 2000)
    (hlow : 8 ≤ quietMs) (hhigh : quietMs ≤ 250) : TapOk { t with latency, quietMs } := by
  obtain ⟨hrx, hlog, -, -, -, hids⟩ := h
  exact ⟨hrx, hlog, hlatency, hlow, hhigh, hids⟩

theorem startQuiet_keeps_tapOk {s : State} (h : TapOk s.tap) : TapOk (startQuiet s).tap :=
  h.of_eq rfl rfl rfl rfl rfl rfl

theorem enterRun_keeps_tapOk {s : State} (h : TapOk s.tap) {b : SetupBlock} (hlatency : b.latency ≤ 2000)
    (hlow : 8 ≤ b.quietMs) (hhigh : b.quietMs ≤ 250) : TapOk (enterRun b s).tap := by
  simp only [enterRun, State.askReport_tap, loadOptions_tap, loadParameters]
  split
  · apply startQuiet_keeps_tapOk
    exact h.with_parameters hlatency hlow hhigh
  · exact h.with_parameters hlatency hlow hhigh

theorem setupReturned_keeps_tapOk {s : State} (h : TapOk s.tap) (bytes : List Byte) :
    TapOk (setupReturned bytes s).tap := by
  unfold setupReturned
  split
  · split
    · next hvalid =>
      obtain ⟨-, -, -, -, -, -, -, -, -, -, -, -, hlow, hhigh, hlatency, -⟩ := (SetupBlock.valid_iff _ _).mp hvalid
      exact enterRun_keeps_tapOk h hlatency hlow hhigh
    · exact h
  · exact h

/-! ### Every effect -/

theorem tapOk_reset : TapOk Tap.reset :=
  ⟨⟨by decide, fun h => absurd rfl h, nofun⟩, logOk_nil, by decide, by decide, by decide, fun _ => rfl, nofun, nofun⟩

/-- The tap changes by time, by the lens line and at RUN entry; every other effect leaves it as it is. -/
theorem effect_keeps_tapOk {s : State} (h : TapOk s.tap) (c : Instr) (r : Request) : TapOk (effect c r s).tap := by
  have of_eq {u : State} (hu : u.tap = s.tap) : TapOk u.tap := hu ▸ h
  cases c with
  | powerOnReset => exact tapOk_reset
  | tick | eraYoungClear => exact h.of_eq rfl rfl rfl rfl rfl rfl
  | sync => exact (h.with_rx h.1.mark).emptied.of_eq rfl rfl rfl rfl rfl rfl
  | lensMessage line =>
    exact hearLine_keeps (P := fun u => TapOk u.tap) (fun _ e hu => hearEvent_keeps_tapOk hu e) h line
  | quietTimerExpiry =>
    rw [effect_quietTimerExpiry]
    split
    · exact startQuiet_keeps_tapOk h
    · exact h
  | setupReadReturn tag bytes => exact setupReturned_keeps_tapOk h bytes
  | setupReadFault | otherRegisterWrite | ack | errorClear | irqEnableUpdate | clearFaults | softReset => exact h
  | temperatureSample t => exact of_eq (thermalSample_tap _ s)
  | cancel => exact of_eq (cancelRequest_tap s)
  | modeRun | modeReopen | takeDocket | markDocket | reportWriteTakeUp | cancelComplete =>
    apply of_eq
    simp only [effect_modeRun, effect_modeReopen, effect_takeDocket, effect_markDocket,
      effect_reportWriteTakeUp, effect_cancelComplete]
    split <;> rfl
  | postWrite value =>
    apply of_eq
    rw [effect_postWrite]
    split <;> [split <;> [exact acceptPost_tap _ s; rfl]; rfl]
  | xbaseWrite value =>
    apply of_eq
    rw [effect_xbaseWrite]
    split <;> [split <;> rfl; rfl]
  | frameDocket | installDocket | dropDocket | trimNudge | trimSet | badTrimMode | optionsDocket | badKindDocket =>
    exact whileReading_keeps (P := fun u => TapOk u.tap) h fun _ _ => of_eq (by simp)
  | installValidation | imageReadFault | bandReadReturn | bandWriteAck | bandBusError | memoryRequestTimeout
  | outcomeWriteAck | reportWriteAck | exchangeFault => exact of_eq (by simp [Machine.effect])
  | resolveFrame => exact of_eq (resolvePlaced_tap s)
  | pick => exact of_eq (State.pick_tap s)
  | drainEnd => exact of_eq (drainEnd_tap s)
  | outcomeTakeUp =>
    rw [effect_outcomeTakeUp]
    split
    · exact of_eq (takeUpAnswer_tap s)
    · exact h
  | signallingUpdate =>
    exact withInHand_keeps (P := fun u => TapOk u.tap) h fun x _ _ => of_eq (signalAnswer_tap x s)

/-- Settles O55: the receiver by `ReceiverOk.hear`, the log by `LogOk.appendSample`, the identities by `TapOk.track`, Q
and L by the checks of the setup block. -/
theorem tapKept : Obligations.TapKept := fun _ _ h hstep =>
  step_keeps (P := fun u => TapOk u.tap) (fun _ _ hu => hu) (fun _ _ hu => hu)
    (fun c r _ hu => effect_keeps_tapOk hu c r) h hstep

end Sys2Proof.Machine

/-! PROOFS. The three counts (R109, R167): what a docket's handling at the intake unit leaves of them, and that every
step keeps retired, taken, the cancel's boundary and POST in order. -/

namespace Sys2Proof.Machine

/-! ### What the handling of docket `seq` at the intake unit can do (R113) -/

/-- Docket `seq`, which the intake unit holds in `s`, is answered, is still held, or is in the work list in `t`; the
counts, the completion map and the register window are as before. -/
structure IntakeMoves (seq : Count) (s t : State) : Prop where
  win : t.win = s.win
  taken : t.intake.taken = s.intake.taken
  retired : t.intake.retired = s.intake.retired
  map : t.intake.map = s.intake.map
  moved :
    (∃ a, a.seq = seq ∧ t.intake.phase = .writing ∧ t.writer = s.writer.add [.intake a] ∧ t.work = s.work)
    ∨ (t.intake.phase.docket = [seq] ∧ t.writer = s.writer ∧ t.work = s.work)
    ∨ ∃ e waiting, e.seq = seq ∧ t.intake.phase = .idle ∧ t.work = s.work ++ [e]
        ∧ waiting.flatMap WaitingAnswer.docket = [] ∧ t.writer = s.writer.add waiting

/-- The answer of a docket, whatever its handling has changed besides the intake unit, the writer and the work list. -/
theorem intakeMoves_answer {s u : State} {a : Answer} (hwin : u.win = s.win := by rfl)
    (htaken : u.intake.taken = s.intake.taken := by rfl) (hretired : u.intake.retired = s.intake.retired := by rfl)
    (hmap : u.intake.map = s.intake.map := by rfl) (hwriter : u.writer = s.writer := by rfl)
    (hwork : u.work = s.work := by rfl) : IntakeMoves a.seq s (u.answer a) where
  win := hwin
  taken := htaken
  retired := hretired
  map := hmap
  moved := .inl ⟨a, rfl, rfl, by rw [← hwriter]; rfl, hwork⟩

theorem intakeMoves_held {s t : State} {seq : Count} (hphase : t.intake.phase.docket = [seq])
    (hwin : t.win = s.win := by rfl) (htaken : t.intake.taken = s.intake.taken := by rfl)
    (hretired : t.intake.retired = s.intake.retired := by rfl) (hmap : t.intake.map = s.intake.map := by rfl)
    (hwriter : t.writer = s.writer := by rfl) (hwork : t.work = s.work := by rfl) : IntakeMoves seq s t where
  win := hwin
  taken := htaken
  retired := hretired
  map := hmap
  moved := .inr (.inl ⟨hphase, hwriter, hwork⟩)

theorem resolve_moves (seq : Count) (f : FrameFields) (s : State) : IntakeMoves seq s (resolve seq f s) := by
  unfold resolve
  dsimp only
  split
  · exact ⟨rfl, rfl, rfl, rfl, .inl ⟨_, rfl, rfl, rfl, rfl⟩⟩
  · next e he =>
    refine ⟨rfl, rfl, rfl, rfl, .inr (.inr
      ⟨e, if s.win.cancel.isSome then [.entry seq .cancelled] else [], (resolution_made he).1, rfl, rfl, ?_, ?_⟩)⟩
    · split <;> rfl
    · split
      · rfl
      · simp [OutcomeWriter.add]

theorem frameReturned_moves (f : FrameFields) (seq : Count) (s : State) :
    IntakeMoves seq s (frameReturned f seq s) := by
  unfold frameReturned
  split
  · exact intakeMoves_answer (a := refusal seq _ _ _ _)
  · split
    · exact resolve_moves seq f s
    · exact intakeMoves_held rfl

theorem installReturned_moves (bytes : List Byte) (seq : Count) (s : State) :
    IntakeMoves seq s (installReturned bytes seq s) := by
  unfold installReturned
  dsimp only
  split
  · exact intakeMoves_answer (a := refusal seq _ _ _ _)
  · obtain ⟨rest, hphase⟩ := State.readMore_phase (s := { s with
      slots := s.slots.set _ .loading
      intake := { s.intake with install := true, phase := .executing seq _ _ _ } }) rfl
    exact intakeMoves_held (by rw [hphase]; rfl) (by simp) (by simp) (by simp) (by simp) (by simp) (by simp)

theorem validateInstall_moves (bytes : List Byte) (seq : Count) (slot : Nat) (s : State) :
    IntakeMoves seq s (validateInstall bytes seq slot s) := by
  unfold validateInstall
  split
  · exact intakeMoves_answer (a := refusal seq _ _ _ _)
  · exact intakeMoves_answer (a := completion seq _ _ _)

theorem dropReturned_moves (bytes : List Byte) (seq : Count) (s : State) :
    IntakeMoves seq s (dropReturned bytes seq s) := by
  unfold dropReturned
  split
  · exact intakeMoves_answer (a := refusal seq _ _ _ _)
  · exact intakeMoves_answer (a := completion seq _ _ _)

theorem trimReturned_moves (bytes : List Byte) {k : Profile → State → State} {seq : Count} {s : State}
    (hk : ∀ p, IntakeMoves seq s (k p s)) : IntakeMoves seq s (trimReturned bytes k seq s) := by
  unfold trimReturned
  split
  · exact intakeMoves_answer (a := refusal seq _ _ _ _)
  · exact hk _

theorem nudgeReturned_moves (bytes : List Byte) (seq : Count) (s : State) :
    IntakeMoves seq s (nudgeReturned bytes seq s) := by
  refine trimReturned_moves bytes fun p => ?_
  split
  · exact intakeMoves_answer (a := completion seq _ _ _)
  · exact intakeMoves_answer (a := refusal seq _ _ _ _)

theorem setReturned_moves (bytes : List Byte) (seq : Count) (s : State) :
    IntakeMoves seq s (setReturned bytes seq s) :=
  trimReturned_moves bytes fun _ => intakeMoves_answer (a := completion seq _ _ _)

theorem badModeReturned_moves (bytes : List Byte) (seq : Count) (s : State) :
    IntakeMoves seq s (badModeReturned bytes seq s) :=
  trimReturned_moves bytes fun _ => intakeMoves_answer (a := refusal seq _ _ _ _)

theorem optionsReturned_moves (bytes : List Byte) (seq : Count) (s : State) :
    IntakeMoves seq s (optionsReturned bytes seq s) := by
  unfold optionsReturned
  split
  · exact intakeMoves_answer (a := completion seq _ _ _)
  · exact intakeMoves_answer (a := refusal seq _ _ _ _)

/-- What a command does to the docket that the intake unit holds: nothing, or its handling. -/
def DocketStep (s t : State) : Prop := t = s ∨ ∃ seq, s.intake.phase.docket = [seq] ∧ IntakeMoves seq s t

theorem whileReading_step {k : Count → State → State} {s : State} (hk : ∀ seq, IntakeMoves seq s (k seq s)) :
    DocketStep s (whileReading k s) := by
  unfold whileReading
  split
  · next seq hphase => exact .inr ⟨seq, by rw [hphase]; rfl, hk seq⟩
  · exact .inl rfl

theorem resolvePlaced_step (s : State) : DocketStep s (resolvePlaced s) := by
  unfold resolvePlaced
  split
  · next seq f hphase =>
    split
    · exact .inr ⟨seq, by rw [hphase]; rfl, resolve_moves seq f s⟩
    · exact .inl rfl
  · exact .inl rfl

theorem imageFault_step (s : State) : DocketStep s (imageFault s) := by
  unfold imageFault withInstall
  split
  · next seq slot _ _ hphase =>
    exact .inr ⟨seq, by rw [hphase]; rfl, intakeMoves_answer (a := refusal seq _ _ _ _)⟩
  · exact .inl rfl

theorem imageReturned_step (bytes : List Byte) (r : Request) (s : State) :
    DocketStep s (imageReturned bytes r s) := by
  obtain h | ⟨seq, slot, offset, before, unissued, hphase, -, h⟩ := imageReturned_cases bytes r s
  · exact .inl h
  refine .inr ⟨seq, by rw [hphase]; rfl, ?_⟩
  obtain h | h | h := h <;> rw [h]
  · obtain ⟨rest, hmore⟩ := State.readMore_phase (s := { s with
      intake := { s.intake with phase := .executing seq slot (putBytes before offset bytes) unissued } }) rfl
    exact intakeMoves_held (by rw [hmore]; rfl) (by simp) (by simp) (by simp) (by simp) (by simp) (by simp)
  · exact intakeMoves_held rfl
  · obtain ⟨hwin, htaken, hretired, hmap, hmoved⟩ := validateInstall_moves (putBytes before offset bytes) seq slot
      { s with intake := { s.intake with phase := .executing seq slot (putBytes before offset bytes) unissued } }
    exact ⟨hwin, htaken, hretired, hmap, hmoved⟩

/-- The effects that handle the docket the intake unit holds. -/
def handlesDocket : Instr → Bool
  | .frameDocket _ _ | .installDocket _ _ | .dropDocket _ _ | .trimNudge _ _ | .trimSet _ _ | .badTrimMode _ _
  | .optionsDocket _ _ | .badKindDocket _ _ | .installValidation _ _ | .imageReadFault _ | .resolveFrame => true
  | _ => false

theorem effect_docketStep {c : Instr} (hc : handlesDocket c = true) (r : Request) (s : State) :
    DocketStep s (effect c r s) := by
  cases c with
  | frameDocket => exact whileReading_step fun seq => frameReturned_moves _ seq s
  | installDocket => exact whileReading_step fun seq => installReturned_moves _ seq s
  | dropDocket => exact whileReading_step fun seq => dropReturned_moves _ seq s
  | trimNudge => exact whileReading_step fun seq => nudgeReturned_moves _ seq s
  | trimSet => exact whileReading_step fun seq => setReturned_moves _ seq s
  | badTrimMode => exact whileReading_step fun seq => badModeReturned_moves _ seq s
  | optionsDocket => exact whileReading_step fun seq => optionsReturned_moves _ seq s
  | badKindDocket tag bytes =>
    exact whileReading_step (k := fun seq s => s.answer (refusal seq (docketKind bytes) false .badKind []))
      fun seq => intakeMoves_answer (a := refusal seq _ _ _ _)
  | installValidation => exact imageReturned_step _ r s
  | imageReadFault => exact imageFault_step s
  | resolveFrame => exact resolvePlaced_step s
  | _ => cases hc

/-! ### Frames of the register window -/

theorem followShutdown_win (before after : Bool) (s : State) : (followShutdown before after s).win = { s.win with
    state := if !before && after && s.win.state == .run then .hot
      else if before && !after && s.win.state == .hot then .run else s.win.state } := by
  unfold followShutdown
  split
  · exact breakOffHot_win _
  · split
    · exact State.pick_win _
    · rfl

/-- Only RUN and HOT change, into each other. -/
theorem thermalSample_win (t : Int) (s : State) : (thermalSample t s).win = { s.win with
    state := if !s.thermal.shutdown && (thermalSample t s).thermal.shutdown && s.win.state == .run then .hot
      else if s.thermal.shutdown && !(thermalSample t s).thermal.shutdown && s.win.state == .hot then .run
      else s.win.state } := by
  rw [thermalSample_thermal]
  exact followShutdown_win _ _ _

theorem State.cancelCheck_win (s : State) : s.cancelCheck.win = s.win
    ∨ ∃ c, s.win.cancel = some c ∧ c.stage = .working
      ∧ s.cancelCheck.win = { s.win with cancel := some { c with stage := .reportAsked } } := by
  obtain h | ⟨c, hc, hstage, -, h⟩ := s.cancelCheck_cases <;> rw [h]
  · exact .inl rfl
  · exact .inr ⟨c, hc, hstage, rfl⟩

theorem State.not_working_iff (s : State) : s.working = false ↔ s.win.state = .setup ∨ s.win.state = .halted := by
  unfold State.working
  cases s.win.state <;> decide

/-! ### The counts in order -/

/-- `CountsOk` speaks of the three counts, of a cancel's boundary, and of the operating state through it alone. -/
theorem CountsOk.of_eq {s t : State} (h : CountsOk s) (hretired : t.intake.retired = s.intake.retired)
    (htaken : t.intake.taken = s.intake.taken) (hpost : t.win.post = s.win.post)
    (hcancel : t.win.cancel.map Cancel.boundary = s.win.cancel.map Cancel.boundary)
    (hworking : t.working = false → s.working = false) : CountsOk t := by
  obtain ⟨htakenPost, hpostMax, hboundary, hidle⟩ := h
  unfold CountsOk
  rw [hretired, htaken, hpost]
  refine ⟨htakenPost, hpostMax, fun c hc => ?_, fun hstate => ?_⟩
  · rw [hc] at hcancel
    obtain ⟨c', hc', heq⟩ := Option.map_eq_some_iff.mp hcancel.symm
    rw [← heq]
    exact hboundary c' hc'
  · rw [hidle ((State.not_working_iff s).mp (hworking ((State.not_working_iff t).mpr hstate)))] at hcancel
    exact Option.map_eq_none_iff.mp hcancel

theorem CountsOk.of_win {s t : State} (h : CountsOk s) (hwin : t.win = s.win)
    (hretired : t.intake.retired = s.intake.retired) (htaken : t.intake.taken = s.intake.taken) : CountsOk t :=
  h.of_eq hretired htaken (by rw [hwin]) (by rw [hwin]) (by unfold State.working; rw [hwin]; exact id)

theorem CountsOk.of_intake {s t : State} (h : CountsOk s) (hwin : t.win = s.win) (hintake : t.intake = s.intake) :
    CountsOk t := h.of_win hwin (by rw [hintake]) (by rw [hintake])

theorem ahead_inj {r x y : Count} (h : ahead r x = ahead r y) : x = y := by
  rw [← add_ofNat_ahead r x, h, add_ofNat_ahead]

/-- With the three counts 0 and no cancel, they are in order. -/
theorem countsOk_zero {s : State} (hretired : s.intake.retired = 0) (htaken : s.intake.taken = 0)
    (hpost : s.win.post = 0) (hcancel : s.win.cancel = none) : CountsOk s := by
  unfold CountsOk
  rw [hretired, htaken, hpost, hcancel]
  exact ⟨by simp, by simp, nofun, fun _ => rfl⟩

theorem CountsOk.without_cancel {s t : State} (h : CountsOk s) (hintake : t.intake.retired = s.intake.retired)
    (htaken : t.intake.taken = s.intake.taken) (hpost : t.win.post = s.win.post) (hcancel : t.win.cancel = none) :
    CountsOk t := by
  obtain ⟨htakenPost, hpostMax, -, -⟩ := h
  unfold CountsOk
  rw [hintake, htaken, hpost, hcancel]
  exact ⟨htakenPost, hpostMax, nofun, fun _ => rfl⟩

theorem CountsOk.cancelCheck {s : State} (h : CountsOk s) : CountsOk s.cancelCheck := by
  obtain hc | ⟨c, hc, -, -, he⟩ := s.cancelCheck_cases
  · rwa [hc]
  · rw [he]
    exact h.of_eq rfl rfl rfl (by simp [hc]) id

theorem CountsOk.moveWaiters {s : State} (h : CountsOk s) (f : Stage → Stage) (g : CancelStage → CancelStage) :
    CountsOk (s.moveWaiters f g) := by
  refine h.of_eq rfl rfl rfl ?_ id
  unfold State.moveWaiters
  cases s.win.cancel <;> rfl

/-- R112, R168: the intake unit passes a docket below POST and below the boundary of a cancel. -/
theorem CountsOk.advance {s t : State} (h : CountsOk s) (hpost : s.intake.taken ≠ s.win.post)
    (hboundary : ∀ c, s.win.cancel = some c → s.intake.taken ≠ c.boundary) (hwin : t.win = s.win)
    (hretired : t.intake.retired = s.intake.retired) (htaken : t.intake.taken = s.intake.taken + 1) : CountsOk t := by
  obtain ⟨htakenPost, hpostMax, hcancel, hidle⟩ := h
  unfold CountsOk
  rw [hretired, htaken, hwin]
  refine ⟨(ahead_succ _ _ _ htakenPost hpost).2, hpostMax, fun c hc => ?_, hidle⟩
  obtain ⟨hlow, hhigh⟩ := hcancel c hc
  exact ⟨(ahead_succ _ _ _ hlow (hboundary c hc)).2, hhigh⟩

/-- R121: the retired count advances no further than to the taken count, and all that stood ahead of it is as many
dockets nearer. -/
theorem CountsOk.retire {s t : State} (h : CountsOk s) {k : Nat} (hk : k ≤ ahead s.intake.retired s.intake.taken)
    (hretired : t.intake.retired = s.intake.retired + BitVec.ofNat 16 k) (htaken : t.intake.taken = s.intake.taken)
    (hwin : t.win = s.win) : CountsOk t := by
  obtain ⟨htakenPost, hpostMax, hcancel, hidle⟩ := h
  have nearer : ∀ x, ahead s.intake.retired s.intake.taken ≤ ahead s.intake.retired x →
      ahead (s.intake.retired + BitVec.ofNat 16 k) x = ahead s.intake.retired x - k :=
    fun x => ahead_advance _ _ _ k hk
  unfold CountsOk
  rw [hretired, htaken, hwin, nearer _ le_rfl, nearer _ htakenPost]
  refine ⟨by omega, by omega, fun c hc => ?_, hidle⟩
  obtain ⟨hlow, hhigh⟩ := hcancel c hc
  rw [nearer _ hlow]
  omega

theorem CountsOk.answerAcked {s : State} (h : CountsOk s) (x : InHand) : CountsOk (answerAcked x s) := by
  obtain ⟨k, hk, hretired, -⟩ :=
    Intake.retireCheck_spec { s.intake with
      map := setFlag s.intake.map x.answer.seq, install := s.intake.install && x.ofEntry }
  exact h.retire hk hretired rfl rfl

theorem lowerBoundary_boundary (retired new : Count) (c : Cancel) : (lowerBoundary retired new c).boundary =
    if ahead retired new < ahead retired c.boundary then new else c.boundary := by
  unfold lowerBoundary
  split <;> rfl

/-- R109, R167: an accepted POST is at or ahead of the taken count, and a boundary beyond it comes back to it. -/
theorem CountsOk.acceptPost {s : State} (h : CountsOk s) {new : Count}
    (hrange : s.postInRange new = true) : CountsOk (acceptPost new s) := by
  obtain ⟨-, -, hcancel, hidle⟩ := h
  obtain ⟨hlow, hhigh⟩ := of_decide_eq_true hrange
  apply CountsOk.cancelCheck
  refine ⟨hlow, hhigh, fun c hc => ?_, fun hstate => ?_⟩
  · obtain ⟨before, hbefore, rfl⟩ := Option.map_eq_some_iff.mp hc
    have hbounds := hcancel before hbefore
    dsimp only
    rw [lowerBoundary_boundary]
    split <;> omega
  · have hnone : s.win.cancel = none := hidle hstate
    simp [hnone]

theorem CountsOk.cancelRequest {s : State} (h : CountsOk s) : CountsOk (cancelRequest s) := by
  unfold Machine.cancelRequest
  split
  · next hworking =>
    split
    · exact h
    · apply CountsOk.cancelCheck
      obtain ⟨htakenPost, hpostMax, -, -⟩ := h
      refine ⟨htakenPost, hpostMax, fun c hc => ?_, fun hstate => ?_⟩
      · obtain rfl := Option.some.inj hc
        exact ⟨htakenPost, le_rfl⟩
      · have hidle : s.working = false := (State.not_working_iff s).mpr hstate
        simp [hidle] at hworking
  · exact h.of_win rfl rfl rfl

theorem CountsOk.enterRun {s : State} (h : CountsOk s) (hsetup : s.win.state = .setup) (b : SetupBlock) :
    CountsOk (enterRun b s) := by
  have hcancel : s.win.cancel = none := h.2.2.2 (.inl hsetup)
  refine countsOk_zero rfl rfl rfl ?_
  simp only [Machine.enterRun, State.askReport_win, loadOptions, loadParameters]
  split <;> exact hcancel

theorem CountsOk.setupReturned {s : State} (h : CountsOk s) (bytes : List Byte) :
    CountsOk (setupReturned bytes s) := by
  unfold Machine.setupReturned
  split
  · next hsetup =>
    split
    · exact h.enterRun hsetup _
    · exact h.of_eq rfl rfl rfl rfl id
  · exact h

theorem CountsOk.setupFault {s : State} (h : CountsOk s) : CountsOk (setupFault s) := h.of_eq rfl rfl rfl rfl id

theorem CountsOk.exchangeFault {s : State} (h : CountsOk s) : CountsOk (exchangeFault s) := by
  unfold Machine.exchangeFault
  split
  · exact h.without_cancel rfl rfl rfl rfl
  · exact h

theorem CountsOk.docketStep {s t : State} (h : CountsOk s) (hstep : DocketStep s t) : CountsOk t := by
  obtain rfl | ⟨seq, -, hmoves⟩ := hstep
  · exact h
  · exact h.of_win hmoves.win hmoves.retired hmoves.taken

theorem CountsOk.bandFailed {s : State} (h : CountsOk s) : CountsOk (bandFailed s) :=
  h.of_intake (bandFailed_win s) (bandFailed_intake s)

theorem CountsOk.busError {s : State} (h : CountsOk s) (r : Request) : CountsOk (busError r s) := by
  unfold Machine.busError
  split
  case h_1 => exact h.setupFault
  case h_3 => exact h.docketStep (imageFault_step s)
  case h_4 | h_5 => exact h.bandFailed
  all_goals exact h.exchangeFault

theorem CountsOk.answerWriteAcked {s : State} (h : CountsOk s) (r : Request) : CountsOk (answerWriteAcked r s) := by
  obtain he | ⟨x, -, -, ⟨-, he⟩ | ⟨-, he⟩⟩ := answerWriteAcked_cases r s <;> rw [he]
  · exact h
  · exact h.answerAcked x
  · exact h.of_win rfl rfl rfl

theorem CountsOk.thermalSample {s : State} (h : CountsOk s) (t : Int) : CountsOk (thermalSample t s) := by
  have hwin := thermalSample_win t s
  refine h.of_eq (by simp) (by simp) (by rw [hwin]) (by rw [hwin]) ?_
  rw [State.not_working_iff, State.not_working_iff, hwin]
  dsimp only
  split
  · simp
  · split
    · simp
    · exact id

/-! ### Every effect -/

theorem CountsOk.effect {s : State} (h : CountsOk s) (c : Instr) (r : Request) : CountsOk (effect c r s) := by
  cases c with
  | powerOnReset | softReset => exact countsOk_zero rfl rfl rfl rfl
  | tick | eraYoungClear | sync | ack | clearFaults | errorClear | irqEnableUpdate | otherRegisterWrite =>
    exact h.of_win rfl rfl rfl
  | lensMessage line => exact h.of_intake (hearLine_win line s) (hearLine_intake line s)
  | quietTimerExpiry =>
    rw [effect_quietTimerExpiry]
    split <;> exact h.of_win rfl rfl rfl
  | temperatureSample t => exact h.thermalSample _
  | cancel => exact h.cancelRequest
  | modeRun =>
    rw [effect_modeRun]
    split <;> exact h.of_eq rfl rfl rfl rfl id
  | modeReopen =>
    rw [effect_modeReopen]
    split
    · next hquiescent =>
      obtain ⟨-, hquiescent⟩ := hquiescent
      simp only [State.quiescent, Bool.and_eq_true, Option.isNone_iff_eq_none] at hquiescent
      obtain ⟨⟨⟨⟨⟨-, hcancel⟩, -⟩, -⟩, -⟩, -⟩ := hquiescent
      exact h.without_cancel rfl rfl rfl hcancel
    · exact h.of_win rfl rfl rfl
  | postWrite value =>
    rw [effect_postWrite]
    split
    · split
      · next hrange => exact h.acceptPost hrange
      · exact h.of_win rfl rfl rfl
    · exact h.of_win rfl rfl rfl
  | xbaseWrite value =>
    rw [effect_xbaseWrite]
    split
    · split <;> exact h.of_eq rfl rfl rfl rfl id
    · exact h.of_win rfl rfl rfl
  | setupReadReturn tag bytes => exact h.setupReturned bytes
  | setupReadFault => exact h.setupFault
  | takeDocket =>
    rw [effect_takeDocket]
    split
    · next hcan =>
      simp only [State.canTake, Bool.and_eq_true, Option.isNone_iff_eq_none, bne_iff_ne] at hcan
      obtain ⟨⟨-, hcancel⟩, hpost⟩ := hcan
      exact h.advance hpost (by simp [hcancel]) rfl rfl rfl
    · exact h
  | markDocket =>
    rw [effect_markDocket]
    split
    · next hcan =>
      obtain ⟨-, hcan⟩ := Bool.and_eq_true_iff.mp hcan
      split at hcan
      · next c hc =>
        have hne : s.intake.taken ≠ c.boundary := by simpa using hcan
        refine h.advance (fun heq => ?_) (fun c' hc' => by cases hc.symm.trans hc'; exact hne) rfl rfl rfl
        obtain ⟨hlow, hhigh⟩ := h.2.2.1 c hc
        rw [← heq] at hhigh
        exact hne (ahead_inj (Nat.le_antisymm hlow hhigh))
      · cases hcan
    · exact h
  | frameDocket | installDocket | dropDocket | trimNudge | trimSet | badTrimMode | optionsDocket | badKindDocket
  | installValidation | imageReadFault | resolveFrame => exact h.docketStep (effect_docketStep rfl r s)
  | pick => exact h.of_intake (State.pick_win s) (State.pick_intake s)
  | bandReadReturn | bandWriteAck =>
    exact h.of_intake (by simp [Machine.effect]) (by simp [Machine.effect])
  | bandBusError => exact h.bandFailed
  | memoryRequestTimeout => exact h.busError r
  | drainEnd => exact h.of_intake (drainEnd_win s) (drainEnd_intake s)
  | outcomeTakeUp =>
    rw [effect_outcomeTakeUp]
    split
    · exact h.of_intake (takeUpAnswer_win s) (takeUpAnswer_intake s)
    · exact h
  | outcomeWriteAck => exact h.answerWriteAcked r
  | reportWriteTakeUp =>
    rw [effect_reportWriteTakeUp]
    split
    · apply CountsOk.moveWaiters
      exact h.of_win rfl rfl rfl
    · exact h
  | reportWriteAck =>
    rw [effect_reportWriteAck]
    split
    · apply CountsOk.moveWaiters
      exact h.of_win rfl rfl rfl
    · exact h
  | signallingUpdate =>
    refine withInHand_keeps h fun x _ _ => CountsOk.cancelCheck ?_
    exact h.of_win rfl (by dsimp only; split <;> rfl) (by dsimp only; split <;> rfl)
  | exchangeFault => exact h.exchangeFault
  | cancelComplete =>
    rw [effect_cancelComplete]
    split
    · exact h.without_cancel rfl rfl rfl rfl
    · exact h

/-- Settles O56: the taken count by `CountsOk.advance`, the retired count by `CountsOk.retire`, POST and the boundary by
`CountsOk.acceptPost`; a cancel begins in RUN and HOT alone and ends where they are left. -/
theorem countsKept : Obligations.CountsKept := fun _ _ h hstep =>
  step_keeps (P := CountsOk) (fun _ _ hu => hu.of_win rfl rfl rfl) (fun _ _ hu => hu.of_win rfl rfl rfl)
    (fun c r _ hu => hu.effect c r) h hstep

end Sys2Proof.Machine

/-! PROOFS. The work list and the remap engine (chapter 5): what a command can do to them, said once (`WorkMoves`), and
that each of these moves keeps the list's rules (R84 to R86), the bands done and the entries' frozen parts. -/

namespace Sys2Proof.Machine

/-! ### Entries of the work list -/

theorem isRunning_iff (e : Entry) : isRunning e = true ↔ e.state = .running := by simp [isRunning]

theorem countP_isRunning_eq_zero {work : List Entry} : work.countP isRunning = 0 ↔ ∀ x ∈ work, x.state ≠ .running := by
  simp [List.countP_eq_zero, isRunning]

theorem countP_isParked_eq_zero {work : List Entry} : work.countP isParked = 0 ↔ ∀ x ∈ work, x.state ≠ .parked := by
  simp [List.countP_eq_zero, isParked]

theorem runningEntry_some {work : List Entry} {e : Entry} (h : runningEntry work = some e) :
    e ∈ work ∧ e.state = .running :=
  ⟨List.mem_of_find?_eq_some h, by simpa using List.find?_some h⟩

theorem runningEntry_none {work : List Entry} (h : runningEntry work = none) : ∀ x ∈ work, x.state ≠ .running := by
  simpa [runningEntry] using h

/-- The RUNNING entry and the list around it, where no other is RUNNING. -/
theorem exists_split_of_running {work : List Entry} (hone : work.countP isRunning ≤ 1) {e : Entry}
    (h : runningEntry work = some e) : ∃ pre post, work = pre ++ e :: post ∧ e.state = .running
      ∧ (∀ x ∈ pre, x.state ≠ .running) ∧ ∀ x ∈ post, x.state ≠ .running := by
  obtain ⟨hmem, hrunning⟩ := runningEntry_some h
  obtain ⟨pre, post, rfl⟩ := List.append_of_mem hmem
  rw [List.countP_append, List.countP_cons_of_pos ((isRunning_iff e).mpr hrunning)] at hone
  exact ⟨pre, post, rfl, hrunning, countP_isRunning_eq_zero.mp (by omega), countP_isRunning_eq_zero.mp (by omega)⟩

theorem runningEntry_isSome {work : List Entry} (h : work.countP isRunning ≠ 0) : ∃ e, runningEntry work = some e := by
  cases hr : runningEntry work with
  | some e => exact ⟨e, rfl⟩
  | none => exact absurd (countP_isRunning_eq_zero.mpr (runningEntry_none hr)) h

theorem mem_mapRunning {f : Entry → Entry} {work : List Entry} {x : Entry} (h : x ∈ mapRunning f work) :
    (x ∈ work ∧ x.state ≠ .running) ∨ ∃ e ∈ work, e.state = .running ∧ x = f e := by
  obtain ⟨e, he, rfl⟩ := List.mem_map.mp h
  split
  · next hrunning => exact .inr ⟨e, he, hrunning, rfl⟩
  · next hnot => exact .inl ⟨he, hnot⟩

@[simp] theorem length_mapRunning (f : Entry → Entry) (work : List Entry) :
    (mapRunning f work).length = work.length := List.length_map _

/-- A change of the RUNNING entry that leaves it RUNNING leaves the number of entries of each state. -/
theorem countP_mapRunning {f : Entry → Entry} (hf : ∀ e, (f e).state = e.state) {test : Entry → Bool}
    (htest : ∀ x y : Entry, x.state = y.state → test x = test y) (work : List Entry) :
    (mapRunning f work).countP test = work.countP test := by
  rw [mapRunning, List.countP_map]
  refine List.countP_congr fun e _ => ?_
  have hsame : (if e.state = .running then f e else e).state = e.state := by split <;> simp [hf]
  rw [Function.comp_apply, htest _ e hsame]

theorem runningEntry_mapRunning {f : Entry → Entry} (hf : ∀ e, (f e).state = e.state) {work : List Entry} {e : Entry}
    (h : runningEntry work = some e) : runningEntry (mapRunning f work) = some (f e) := by
  have htest : ((fun x : Entry => x.state == .running) ∘ fun x => if x.state = .running then f x else x)
      = fun x : Entry => x.state == .running := by
    funext x
    simp only [Function.comp_apply]
    split
    · rw [hf]
    · rfl
  unfold runningEntry at h ⊢
  rw [mapRunning, List.find?_map, htest, h]
  exact congrArg some (if_pos (by simpa using List.find?_some h))

/-! ### What a pick takes (R88) -/

/-- The entry a pick takes and the list around it. -/
theorem pickFrom_spec {work : List Entry} (hfree : ∀ x ∈ work, x.state ≠ .running) (hany : work ≠ []) :
    ∃ pre e post, work = pre ++ e :: post ∧ pickFrom work = pre ++ { e with state := .running } :: post
      ∧ ((e.state = .waiting ∧ e.rush = true) ∨ e.state = .parked
        ∨ (e.state = .waiting ∧ ∀ x ∈ work, x.state ≠ .parked)) := by
  have takes {want : Entry → Bool} (hwant : work.any want = true) : ∃ pre e post, work = pre ++ e :: post
      ∧ want e = true ∧ runFirst want work = pre ++ { e with state := .running } :: post := by
    obtain ⟨e, he⟩ := List.find?_isSome.mpr (List.any_eq_true.mp hwant) |> Option.isSome_iff_exists.mp
    obtain ⟨htrue, pre, post, rfl, hpre⟩ := List.find?_eq_some_iff_append.mp he
    exact ⟨pre, e, post, rfl, htrue, runFirst_append want pre e post (fun x hx => by simpa using hpre x hx) htrue⟩
  unfold pickFrom
  split
  · next hrush =>
    obtain ⟨pre, e, post, hsplit, hwant, hrun⟩ := takes hrush
    exact ⟨pre, e, post, hsplit, hrun, .inl ((isWaitingRush_iff e).mp hwant)⟩
  next hrush =>
  split
  · next hparked =>
    obtain ⟨pre, e, post, hsplit, hwant, hrun⟩ := takes hparked
    exact ⟨pre, e, post, hsplit, hrun, .inr (.inl ((isParked_iff e).mp hwant))⟩
  next hparked =>
  have hparked' : ∀ x ∈ work, x.state ≠ .parked := by simpa [isParked] using hparked
  have hburst : work.any isWaitingBurst = true := by
    obtain ⟨x, hx⟩ := List.exists_mem_of_ne_nil work hany
    refine List.any_eq_true.mpr ⟨x, hx, (isWaitingBurst_iff x).mpr ?_⟩
    have hwaiting : x.state = .waiting := by
      cases hstate : x.state with
      | waiting => rfl
      | running => exact absurd hstate (hfree x hx)
      | parked => exact absurd hstate (hparked' x hx)
    have hnotRush : isWaitingRush x = false := by simpa using (List.any_eq_false.mp (by simpa using hrush)) x hx
    exact ⟨hwaiting, by simpa [isWaitingRush, hwaiting] using hnotRush⟩
  obtain ⟨pre, e, post, hsplit, hwant, hrun⟩ := takes hburst
  exact ⟨pre, e, post, hsplit, hrun, .inr (.inr ⟨((isWaitingBurst_iff e).mp hwant).1, hparked'⟩)⟩

/-! ### What a command can do to the work list and the engine -/

/-- The engine is in BAND. -/
def Engine.InBand (e : Engine) : Prop := ∃ cache tally rest, e = .band cache tally rest

theorem Engine.InBand.ne_free {e : Engine} (h : e.InBand) : e ≠ .free := by
  obtain ⟨_, _, _, rfl⟩ := h
  exact nofun

/-- R90: the entry that a park leaves in the list. -/
def parkEntry (e : Entry) : Entry := { e with state := .parked, notes := addNote e.notes .parked }

/-- The moves of the work list and the engine. -/
inductive WorkMoves : State → State → Prop
  | same {s t : State} (hwork : t.work = s.work) (hengine : t.engine = s.engine) : WorkMoves s t
  | cleared {s t : State} (hwork : t.work = []) (hengine : t.engine = .free) : WorkMoves s t
  | added {s t : State} {seq : Count} {f : FrameFields} {e : Entry} (hplace : s.work.length < 8)
      (hmade : resolution s seq f = .ok e) (hbands : FrameBandsOk f.geo ∨ s.intake.phase = .place seq f)
      (hwork : t.work = s.work ++ [e]) (hengine : t.engine = s.engine) : WorkMoves s t
  | left {s t : State} {seq : Count} (hwork : t.work = leaveList s.work seq)
      (hengine : t.engine = engineAfter s.engine s.work seq) : WorkMoves s t
  | warmed {s t : State} {warning : Bool} (hwork : t.work = warmRunning warning s.work)
      (hengine : t.engine = s.engine) : WorkMoves s t
  | served {s t : State} (hwork : t.work = s.work) (hbusy : s.engine ≠ .free) (hstill : t.engine ≠ .free)
      (hband : t.engine.InBand → s.engine.InBand) : WorkMoves s t
  | picked {s t : State} (hfree : s.engine = .free) (hany : s.work ≠ []) (hwork : t.work = pickFrom s.work)
      (hband : t.engine.InBand) : WorkMoves s t
  | counted {s t : State} {tally : Nat} (hband : s.engine.InBand)
      (hwork : t.work = mapRunning (bandCounted tally) s.work)
      (hengine : t.engine = .outcome
        ∨ (t.engine.InBand ∧ ∀ e, runningEntry s.work = some e → e.nextBand + 1 ≠ e.geo.bands)) : WorkMoves s t
  | parked {s t : State} {e : Entry} (hband : s.engine.InBand) (hrunning : runningEntry s.work = some e)
      (hburst : e.rush = false) (hone : 1 ≤ e.nextBand) (hwork : t.work = mapRunning parkEntry s.work)
      (hengine : t.engine = .free) : WorkMoves s t
  | trans {s t u : State} (hst : WorkMoves s t) (htu : WorkMoves t u)
      (hintake : t.intake = s.intake := by rfl) : WorkMoves s u

theorem State.issueMore_served {s : State} (h : s.engine.InBand) : s.issueMore.engine.InBand := by
  obtain ⟨cache, tally, rest, he⟩ := h
  unfold State.issueMore
  split
  · exact ⟨_, _, _, rfl⟩
  · exact ⟨cache, tally, rest, he⟩

theorem State.issueMore_moves {s : State} (h : s.engine.InBand) : WorkMoves s s.issueMore :=
  .served (by simp) h.ne_free (State.issueMore_served h).ne_free fun _ => h

theorem computeBand_inBand {s : State} (h : s.engine.InBand) : (computeBand s).engine.InBand := by
  unfold computeBand
  split
  · apply State.issueMore_served
    exact ⟨_, _, _, rfl⟩
  · exact h

theorem computeBand_moves {s : State} (h : s.engine.InBand) : WorkMoves s (computeBand s) :=
  .served (by simp) h.ne_free (computeBand_inBand h).ne_free fun _ => h

/-- The start of a band replaces whatever the engine was doing. -/
theorem startBand_spec {s : State} {e : Entry} (h : runningEntry s.work = some e) :
    (startBand s).work = warmRunning s.thermal.warning s.work ∧ (startBand s).engine.InBand := by
  unfold startBand
  rw [h]
  dsimp only
  split
  · exact ⟨computeBand_work _, computeBand_inBand ⟨_, _, _, rfl⟩⟩
  · exact ⟨State.issueMore_work _, State.issueMore_served ⟨_, _, _, rfl⟩⟩

theorem startBand_moves {s : State} {e : Entry} (hband : s.engine.InBand) (h : runningEntry s.work = some e) :
    WorkMoves s (startBand s) := by
  obtain ⟨hwork, hengine⟩ := startBand_spec h
  exact .trans (.warmed (t := { s with work := warmRunning s.thermal.warning s.work }) rfl rfl)
    (.served hwork hband.ne_free hengine.ne_free fun _ => hband)

theorem State.canPick_iff {s : State} : s.canPick = true ↔ s.engine = .free ∧ s.win.state = .run
    ∧ s.win.cancel = none ∧ ∃ x ∈ s.work, x.state ≠ .running := by
  simp [State.canPick, and_assoc]

theorem WorkOk.no_running {s : State} (h : WorkOk s) (hfree : s.engine = .free) : ∀ x ∈ s.work, x.state ≠ .running := by
  obtain ⟨-, -, -, hengine, -⟩ := h
  exact countP_isRunning_eq_zero.mp (hengine.mp hfree)

theorem pickFrom_running {work : List Entry} (hfree : ∀ x ∈ work, x.state ≠ .running) (hany : work ≠ []) :
    ∃ e, runningEntry (pickFrom work) = some e := by
  obtain ⟨pre, e, post, rfl, hpick, -⟩ := pickFrom_spec hfree hany
  exact ⟨_, hpick ▸ runningEntry_append pre _ post (fun x hx => hfree x (by simp [hx])) rfl⟩

theorem State.pick_moves {s : State} (h : WorkOk s) : WorkMoves s s.pick := by
  unfold State.pick
  split
  · next hcan =>
    obtain ⟨hfree, -, -, x, hx, -⟩ := State.canPick_iff.mp hcan
    have hany : s.work ≠ [] := List.ne_nil_of_mem hx
    obtain ⟨e, he⟩ := pickFrom_running (h.no_running hfree) hany
    obtain ⟨hwork, hengine⟩ := startBand_spec (s := { s with work := pickFrom s.work }) he
    exact .trans (.picked (t := { s with work := pickFrom s.work, engine := (startBand { s with
        work := pickFrom s.work }).engine }) hfree hany rfl hengine) (.warmed hwork rfl)
  · exact .same rfl rfl

theorem State.toOutcome_moves {s : State} (h : s.engine ≠ .free) (v : Verdict) : WorkMoves s (s.toOutcome v) :=
  .served rfl h nofun nofun

theorem State.stopBand_moves {s : State} (h : s.engine ≠ .free) (v : Verdict) : WorkMoves s (s.stopBand v) := by
  unfold State.stopBand
  dsimp only
  split
  · exact .served rfl h nofun nofun
  · exact .served rfl h nofun nofun

/-! ### Every move keeps the work list's rules -/

theorem WorkOk.of_eq {s t : State} (h : WorkOk s) (hwork : t.work = s.work)
    (hengine : t.engine = .free ↔ s.engine = .free) : WorkOk t := by
  unfold WorkOk at *
  rwa [hwork, hengine]

theorem workOk_empty {s : State} (hwork : s.work = []) (hengine : s.engine = .free) : WorkOk s := by
  simp [WorkOk, hwork, hengine]

/-- A change of the RUNNING entry that keeps its state and class. -/
theorem WorkOk.mapRunning {s t : State} (h : WorkOk s) {f : Entry → Entry} (hstate : ∀ e, (f e).state = e.state)
    (hrush : ∀ e, (f e).rush = e.rush) (hwork : t.work = mapRunning f s.work)
    (hengine : t.engine = .free ↔ s.engine = .free) : WorkOk t := by
  obtain ⟨hlength, hone, hparked, hbusy, hburst, hbeside⟩ := h
  have running : (Machine.mapRunning f s.work).countP isRunning = s.work.countP isRunning :=
    countP_mapRunning hstate (fun x y hxy => by rw [isRunning, isRunning, hxy]) _
  have parked : (Machine.mapRunning f s.work).countP isParked = s.work.countP isParked :=
    countP_mapRunning hstate (fun x y hxy => by rw [isParked, isParked, hxy]) _
  have origin : ∀ x ∈ Machine.mapRunning f s.work, ∃ e ∈ s.work, e.state = x.state ∧ e.rush = x.rush := by
    intro x hx
    obtain ⟨hx, -⟩ | ⟨e, he, -, rfl⟩ := mem_mapRunning hx
    · exact ⟨x, hx, rfl, rfl⟩
    · exact ⟨e, he, (hstate e).symm, (hrush e).symm⟩
  unfold WorkOk
  rw [hwork, running, parked, length_mapRunning, hengine]
  refine ⟨hlength, hone, hparked, hbusy, fun x hx hp => ?_, fun x hx r hr hp hrun => ?_⟩
  · obtain ⟨e, he, hes, her⟩ := origin x hx
    exact her ▸ hburst e he (hes.trans hp)
  · obtain ⟨e, he, hes, -⟩ := origin x hx
    obtain ⟨e', he', hes', her'⟩ := origin r hr
    exact her' ▸ hbeside e he e' he' (hes.trans hp) (hes'.trans hrun)

theorem WorkOk.added {s t : State} (h : WorkOk s) (hplace : s.work.length < 8) {e : Entry}
    (hwaiting : e.state = .waiting)
    (hwork : t.work = s.work ++ [e]) (hengine : t.engine = s.engine) : WorkOk t := by
  obtain ⟨hlength, hone, hparked, hbusy, hburst, hbeside⟩ := h
  unfold WorkOk
  rw [hwork, hengine, List.length_append, List.countP_append, List.countP_append,
    List.countP_singleton, List.countP_singleton]
  have hnotRunning : isRunning e = false := by simp [isRunning, hwaiting]
  have hnotParked : isParked e = false := by simp [isParked, hwaiting]
  have old : ∀ x ∈ s.work ++ [e], x.state ≠ .waiting → x ∈ s.work := by
    intro x hx hne
    rcases List.mem_append.mp hx with hx | hx
    · exact hx
    · exact absurd (List.mem_singleton.mp hx ▸ hwaiting) hne
  simp only [hnotRunning, hnotParked]
  refine ⟨by simpa using hplace, hone, hparked, hbusy, fun x hx hp => ?_, fun x hx r hr hp hrun => ?_⟩
  · exact hburst x (old x hx (by simp [hp])) hp
  · exact hbeside x (old x hx (by simp [hp])) r (old r hr (by simp [hrun])) hp hrun

/-- The answered entry and the list around it, or a list that it is not in. -/
theorem leaveList_cases (work : List Entry) (seq : Count) (engine : Engine) :
    (leaveList work seq = work ∧ engineAfter engine work seq = engine)
      ∨ ∃ pre e post, work = pre ++ e :: post ∧ e.seq = seq ∧ (∀ x ∈ pre, x.seq ≠ seq)
        ∧ leaveList work seq = pre ++ post
        ∧ engineAfter engine work seq = if e.state = .running then .free else engine := by
  unfold leaveList engineAfter
  cases hfind : work.find? fun e => e.seq == seq with
  | none =>
    refine .inl ⟨List.eraseP_of_forall_not fun x hx => ?_, by simp⟩
    exact List.find?_eq_none.mp hfind x hx
  | some e =>
    obtain ⟨hseq, pre, post, rfl, hpre⟩ := List.find?_eq_some_iff_append.mp hfind
    refine .inr ⟨pre, e, post, rfl, by simpa using hseq, fun x hx => by simpa using hpre x hx, ?_, by simp⟩
    rw [List.eraseP_append_right _ fun x hx => by simpa using hpre x hx,
      List.eraseP_cons_of_pos (p := fun e : Entry => e.seq == seq) hseq]

theorem WorkOk.left {s t : State} (h : WorkOk s) {seq : Count} (hwork : t.work = leaveList s.work seq)
    (hengine : t.engine = engineAfter s.engine s.work seq) : WorkOk t := by
  obtain ⟨hsame, hidle⟩ | ⟨pre, e, post, hsplit, -, -, hleave, hafter⟩ := leaveList_cases s.work seq s.engine
  · exact h.of_eq (by rw [hwork, hsame]) (by rw [hengine, hidle])
  obtain ⟨hlength, hone, hparked, hbusy, hburst, hbeside⟩ := h
  have old : ∀ x ∈ pre ++ post, x ∈ s.work := by
    intro x hx
    rw [hsplit]
    rcases List.mem_append.mp hx with hx | hx <;> simp [hx]
  unfold WorkOk
  rw [hwork, hengine, hleave, hafter]
  rw [hsplit] at hlength hone hparked hbusy
  simp only [List.length_append, List.length_cons, List.countP_append, List.countP_cons] at *
  refine ⟨by omega, by omega, by omega, ?_, fun x hx => hburst x (old x hx),
    fun x hx r hr => hbeside x (old x hx) r (old r hr)⟩
  by_cases hrunning : e.state = .running
  · rw [if_pos ((isRunning_iff e).mpr hrunning)] at hone
    rw [if_pos hrunning]
    exact ⟨fun _ => by omega, fun _ => rfl⟩
  · rw [if_neg (mt (isRunning_iff e).mp hrunning)] at hbusy
    rw [if_neg hrunning, hbusy, Nat.add_zero]

theorem WorkOk.picked {s t : State} (h : WorkOk s) (hfree : s.engine = .free) (hany : s.work ≠ [])
    (hwork : t.work = pickFrom s.work) (hband : t.engine.InBand) : WorkOk t := by
  have hnone := h.no_running hfree
  obtain ⟨hlength, -, hparked, -, hburst, -⟩ := h
  obtain ⟨pre, e, post, hsplit, hpick, htaken⟩ := pickFrom_spec hnone hany
  have others : ∀ x, x ∈ pre ∨ x ∈ post → x ∈ s.work := by
    intro x hx
    rw [hsplit]
    rcases hx with hx | hx <;> simp [hx]
  have zeroPre : pre.countP isRunning = 0 := countP_isRunning_eq_zero.mpr fun x hx => hnone x (others x (.inl hx))
  have zeroPost : post.countP isRunning = 0 := countP_isRunning_eq_zero.mpr fun x hx => hnone x (others x (.inr hx))
  have stays : ∀ x ∈ t.work, x.state = .parked → x ∈ pre ∨ x ∈ post := by
    intro x hx hp
    rw [hwork, hpick] at hx
    rcases List.mem_append.mp hx with hx | hx
    · exact .inl hx
    · rcases List.mem_cons.mp hx with rfl | hx
      · cases hp
      · exact .inr hx
  have running : ∀ r ∈ t.work, r.state = .running → r.rush = e.rush := by
    intro r hr hrun
    rw [hwork, hpick] at hr
    rcases List.mem_append.mp hr with hr | hr
    · exact absurd hrun (hnone r (others r (.inl hr)))
    · rcases List.mem_cons.mp hr with rfl | hr
      · rfl
      · exact absurd hrun (hnone r (others r (.inr hr)))
  have hengine : t.engine = .free ↔ t.work.countP isRunning = 0 := by
    refine iff_of_false hband.ne_free ?_
    simp [hwork, hpick, isRunning]
  rw [hsplit, List.countP_append, List.countP_cons] at hparked
  refine ⟨?_, ?_, ?_, hengine, fun x hx hp => hburst x (others x (stays x hx hp)) hp, fun x hx r hr hp hrun => ?_⟩
  · rw [hwork, hpick]
    rw [hsplit] at hlength
    simpa using hlength
  · rw [hwork, hpick, List.countP_append, List.countP_cons, zeroPre, zeroPost]
    split <;> omega
  · have hnotParked : isParked { e with state := EntryState.running } = false := rfl
    rw [hwork, hpick, List.countP_append, List.countP_cons, hnotParked, if_neg Bool.false_ne_true]
    omega
  · rw [running r hr hrun]
    obtain ⟨-, hrush⟩ | htakenParked | ⟨-, hnoneParked⟩ := htaken
    · exact hrush
    · have hpos : 0 < pre.countP isParked + post.countP isParked := by
        rcases stays x hx hp with hx | hx
        · exact Nat.add_pos_left (List.countP_pos_iff.mpr ⟨x, hx, (isParked_iff x).mpr hp⟩) _
        · exact Nat.add_pos_right _ (List.countP_pos_iff.mpr ⟨x, hx, (isParked_iff x).mpr hp⟩)
      rw [if_pos ((isParked_iff e).mpr htakenParked)] at hparked
      omega
    · exact absurd hp (hnoneParked x (others x (stays x hx hp)))

theorem WorkOk.parked {s t : State} (h : WorkOk s) {e : Entry} (hrunning : runningEntry s.work = some e)
    (hburst : e.rush = false) (hwork : t.work = Machine.mapRunning parkEntry s.work) (hengine : t.engine = .free) :
    WorkOk t := by
  obtain ⟨hlength, hone, -, -, hparkedBurst, hbeside⟩ := h
  obtain ⟨pre, post, hsplit, hstate, hpre, hpost⟩ := exists_split_of_running hone hrunning
  have hmap : t.work = pre ++ parkEntry e :: post := by
    rw [hwork, hsplit, mapRunning_append parkEntry pre e post hpre hpost hstate]
  have others : ∀ x, x ∈ pre ∨ x ∈ post → x ∈ s.work := by
    intro x hx
    rw [hsplit]
    rcases hx with hx | hx <;> simp [hx]
  have hnoneParked : ∀ x ∈ s.work, x.state ≠ .parked := by
    intro x hx hp
    obtain ⟨hmem, -⟩ := runningEntry_some hrunning
    rw [hbeside x hx e hmem hp hstate] at hburst
    cases hburst
  have zeroPre : pre.countP isParked = 0 :=
    countP_isParked_eq_zero.mpr fun x hx => hnoneParked x (others x (.inl hx))
  have zeroPost : post.countP isParked = 0 :=
    countP_isParked_eq_zero.mpr fun x hx => hnoneParked x (others x (.inr hx))
  have hnone : t.work.countP isRunning = 0 := by
    rw [hmap, List.countP_append, List.countP_cons, countP_isRunning_eq_zero.mpr hpre,
      countP_isRunning_eq_zero.mpr hpost]
    rfl
  unfold WorkOk
  rw [hnone, hengine]
  refine ⟨?_, by omega, ?_, by simp, fun x hx hp => ?_, fun x hx r hr _ hrun => ?_⟩
  · rwa [hwork, length_mapRunning]
  · rw [hmap, List.countP_append, List.countP_cons, zeroPre, zeroPost]
    split <;> omega
  · rw [hmap] at hx
    rcases List.mem_append.mp hx with hx | hx
    · exact absurd hp (hnoneParked x (others x (.inl hx)))
    · rcases List.mem_cons.mp hx with rfl | hx
      · exact hburst
      · exact absurd hp (hnoneParked x (others x (.inr hx)))
  · exact absurd hrun (countP_isRunning_eq_zero.mp hnone r hr)

theorem WorkOk.moves {s t : State} (hmoves : WorkMoves s t) (h : WorkOk s) : WorkOk t := by
  induction hmoves with
  | same hwork hengine => exact h.of_eq hwork (by rw [hengine])
  | cleared hwork hengine => exact workOk_empty hwork hengine
  | added hplace hmade _ hwork hengine => exact h.added hplace (resolution_made hmade).2.2.1 hwork hengine
  | left hwork hengine => exact h.left hwork hengine
  | warmed hwork hengine =>
    exact h.mapRunning (f := fun e => { e with notes := noteIf _ .warm e.notes }) (fun _ => rfl) (fun _ => rfl)
      hwork (by rw [hengine])
  | served hwork hbusy hstill _ => exact h.of_eq hwork (iff_of_false hstill hbusy)
  | picked hfree hany hwork hband => exact h.picked hfree hany hwork hband
  | counted hband hwork hengine =>
    refine h.mapRunning (f := bandCounted _) (fun _ => rfl) (fun _ => rfl) hwork (iff_of_false ?_ hband.ne_free)
    rcases hengine with he | ⟨he, -⟩
    · rw [he]; exact nofun
    · exact he.ne_free
  | parked _ hrunning hburst _ hwork hengine => exact h.parked hrunning hburst hwork hengine
  | trans _ _ _ ihst ihtu => exact ihtu (ihst h)

/-! ### Every move keeps the entries' frozen parts -/

/-- `EntryOk` speaks of the parts of an entry that are frozen at resolution. -/
theorem EntryOk.of_eq {e e' : Entry} (h : EntryOk e) (hcurve : e'.curve = e.curve) (hedge : e'.edge = e.edge)
    (hfill : e'.fill = e.fill) (hwl : e'.wl = e.wl) : EntryOk e' := by
  unfold EntryOk at *
  rwa [hcurve, hedge, hfill, hwl]

/-- The sums of a frame curve are clamped, and the fill values of an entry under FILL to its white level. -/
theorem entryOk_makeEntry (seq : Count) (f : FrameFields) {curve : Rgb (List Int)} (cx cy : Int) (notes : BitVec 16)
    (result : ResultFields)
    (hcurve : ∀ c, (curve.get c).length = 65 ∧ ∀ x ∈ curve.get c, -16384 ≤ x ∧ x ≤ 16383) :
    EntryOk (makeEntry seq f curve cx cy notes result) := by
  refine ⟨hcurve, fun hedge c => ?_⟩
  have hfill : f.edgeField ≠ 0 := by
    intro hzero
    simp [makeEntry, edgePolicy, hzero] at hedge
  exact (frozenFill_get_of_fill hfill c).trans_le (Nat.min_le_right _ _)

theorem frameCurve_get (p : Profile) (ch : StationChoice) (c : Channel) :
    (frameCurve p ch).get c = (curveSums p ch c).map (clampInt Config.deltaMin Config.deltaMax) :=
  Rgb.get_tabulate _ c

theorem zeroCurve_get (c : Channel) : zeroCurve.get c = List.replicate 65 0 := Rgb.get_tabulate _ c

theorem clampInt_deltas (x : Int) : clampInt Config.deltaMin Config.deltaMax x = max (-16384) (min 16383 x) := rfl

theorem resolution_entryOk {s : State} {seq : Count} {f : FrameFields} {e : Entry} (h : resolution s seq f = .ok e) :
    EntryOk e := by
  unfold resolution at h
  split at h
  · cases h
  · cases h
    refine entryOk_makeEntry seq f _ _ _ _ fun c => ?_
    rw [zeroCurve_get]
    refine ⟨List.length_replicate, fun x hx => ?_⟩
    rw [List.eq_of_mem_replicate hx]
    omega
  · cases h
    refine entryOk_makeEntry seq f _ _ _ _ fun c => ?_
    rw [frameCurve_get]
    refine ⟨by simp [curveSums], fun x hx => ?_⟩
    obtain ⟨sum, -, rfl⟩ := List.mem_map.mp hx
    rw [clampInt_deltas]
    omega

theorem forall_mapRunning {P : Entry → Prop} {f : Entry → Entry} (hf : ∀ e, P e → P (f e)) {work : List Entry}
    (h : ∀ e ∈ work, P e) : ∀ e ∈ mapRunning f work, P e := by
  intro x hx
  obtain ⟨hx, -⟩ | ⟨e, he, -, rfl⟩ := mem_mapRunning hx
  · exact h x hx
  · exact hf e (h e he)

theorem forall_runFirst {P : Entry → Prop} (hf : ∀ e, P e → P { e with state := .running }) {work : List Entry}
    (h : ∀ e ∈ work, P e) (want : Entry → Bool) : ∀ e ∈ runFirst want work, P e := by
  induction work with
  | nil => exact h
  | cons x rest ih =>
    obtain ⟨hx, hrest⟩ := List.forall_mem_cons.mp h
    unfold runFirst
    split
    · exact List.forall_mem_cons.mpr ⟨hf x hx, hrest⟩
    · exact List.forall_mem_cons.mpr ⟨hx, ih hrest⟩

theorem forall_pickFrom {P : Entry → Prop} (hf : ∀ e, P e → P { e with state := .running }) {work : List Entry}
    (h : ∀ e ∈ work, P e) : ∀ e ∈ pickFrom work, P e := by
  unfold pickFrom
  split
  · exact forall_runFirst hf h _
  · split <;> exact forall_runFirst hf h _

theorem entriesOk_moves {s t : State} (hmoves : WorkMoves s t) (h : ∀ e ∈ s.work, EntryOk e) :
    ∀ e ∈ t.work, EntryOk e := by
  induction hmoves with
  | same hwork _ => rwa [hwork]
  | cleared hwork _ => rw [hwork]; nofun
  | added _ hmade _ hwork _ =>
    rw [hwork]
    exact List.forall_mem_append.mpr ⟨h, by simpa using resolution_entryOk hmade⟩
  | left hwork _ => rw [hwork]; exact fun e he => h e (List.mem_of_mem_eraseP he)
  | warmed hwork _ => rw [hwork]; exact forall_mapRunning (fun _ he => he.of_eq rfl rfl rfl rfl) h
  | served hwork _ _ _ => rwa [hwork]
  | picked _ _ hwork _ => rw [hwork]; exact forall_pickFrom (fun _ he => he.of_eq rfl rfl rfl rfl) h
  | counted _ hwork _ => rw [hwork]; exact forall_mapRunning (fun _ he => he.of_eq rfl rfl rfl rfl) h
  | parked _ _ _ _ hwork _ => rw [hwork]; exact forall_mapRunning (fun _ he => he.of_eq rfl rfl rfl rfl) h
  | trans _ _ _ ihst ihtu => exact ihtu (ihst h)

end Sys2Proof.Machine

/-! PROOFS. Every effect's part on the work list and the engine is one of `WorkMoves`; the bands done (R84, R85) stay
within their rules over them. -/

namespace Sys2Proof.Machine

/-! ### The engine's effects -/

theorem WorkOk.running_of_busy {s : State} (h : WorkOk s) (hbusy : s.engine ≠ .free) :
    ∃ e, runningEntry s.work = some e := by
  obtain ⟨-, -, -, hengine, -⟩ := h
  exact runningEntry_isSome (mt hengine.mpr hbusy)

/-- R89, R90: the band's end counted, then the frame's end, the park with its pick, or the next band. -/
theorem bandDone_moves {s : State} (h : WorkOk s) (hband : s.engine.InBand) (tally : Nat) :
    WorkMoves s (bandDone tally s) := by
  obtain ⟨e, he⟩ := h.running_of_busy hband.ne_free
  have hcounted := runningEntry_mapRunning (f := bandCounted tally) (fun _ => rfl) he
  unfold bandDone
  dsimp only
  rw [hcounted]
  dsimp only
  split
  · exact .counted hband rfl (.inl rfl)
  split
  · exact .counted hband rfl (.inl rfl)
  next hmore =>
  have counted : WorkMoves s { s with work := mapRunning (bandCounted tally) s.work } :=
    .counted hband rfl (.inr ⟨hband, fun e' he' => Option.some.inj (he.symm.trans he') ▸ hmore⟩)
  split
  · next hpark =>
    obtain ⟨hburst, -⟩ := Bool.and_eq_true_iff.mp hpark
    have parked : WorkMoves { s with work := mapRunning (bandCounted tally) s.work }
        { s with work := mapRunning parkEntry (mapRunning (bandCounted tally) s.work), engine := .free } :=
      .parked hband hcounted (by simpa using hburst) (Nat.le_add_left 1 e.nextBand) rfl rfl
    exact .trans counted (.trans parked (State.pick_moves ((h.moves counted).moves parked)))
  · exact .trans counted (startBand_moves hband hcounted)

theorem rowReturned_moves (bytes : List Byte) (r : Request) (s : State) : WorkMoves s (rowReturned bytes r s) := by
  unfold rowReturned
  split
  · next cache tally rest hengine =>
    have hband : s.engine.InBand := ⟨cache, tally, rest, hengine⟩
    have cached : WorkMoves s { s with engine := .band (cacheRow r.use bytes cache) tally rest } :=
      .served rfl hband.ne_free nofun fun _ => hband
    obtain ⟨-, h⟩ | ⟨-, -, h⟩ | ⟨-, -, h⟩ := State.bandMoves_cases
      { s with engine := .band (cacheRow r.use bytes cache) tally rest } Use.isBandRead rest computeBand <;> rw [h]
    · exact .trans cached (State.issueMore_moves ⟨_, _, _, rfl⟩)
    · exact cached
    · exact .trans cached (computeBand_moves ⟨_, _, _, rfl⟩)
  · exact .same rfl rfl

theorem writeAcked_moves (r : Request) {s : State} (hwork : WorkOk s) : WorkMoves s (writeAcked r s) := by
  unfold writeAcked
  split
  · next cache tally rest hengine =>
    have hband : s.engine.InBand := ⟨cache, tally, rest, hengine⟩
    obtain ⟨-, h⟩ | ⟨-, -, h⟩ | ⟨-, -, h⟩ := State.bandMoves_cases s Use.isBandWrite rest (bandDone tally) <;> rw [h]
    · exact State.issueMore_moves hband
    · exact .same rfl rfl
    · exact bandDone_moves hwork hband tally
  · exact .same rfl rfl

theorem bandFailed_moves (s : State) : WorkMoves s (bandFailed s) := by
  unfold bandFailed
  split
  · next hengine =>
    have hbusy : s.engine ≠ .free := hengine ▸ nofun
    exact .trans (.same (t := { s with sig := s.sig.latch .memory }) rfl rfl)
      (State.stopBand_moves (s := { s with sig := s.sig.latch .memory }) hbusy _)
  · exact .same rfl rfl

theorem drainEnd_moves (s : State) : WorkMoves s (drainEnd s) := by
  unfold drainEnd
  split
  · next v hengine =>
    split
    · exact .same rfl rfl
    · exact State.toOutcome_moves (hengine ▸ nofun) v
  · exact .same rfl rfl

/-! ### The temperature sample -/

theorem breakOffHot_moves (s : State) : WorkMoves s (breakOffHot s) := by
  unfold breakOffHot
  split
  · next hengine => exact State.stopBand_moves (hengine ▸ nofun) _
  · exact .same rfl rfl

theorem followShutdown_moves {s : State} (h : WorkOk s) (before after : Bool) :
    WorkMoves s (followShutdown before after s) := by
  unfold followShutdown
  split
  · exact .trans (.same (t := { s with win := { s.win with state := .hot } }) rfl rfl) (breakOffHot_moves _)
  · split
    · have hrun : WorkMoves s { s with win := { s.win with state := .run } } := .same rfl rfl
      exact .trans hrun (State.pick_moves (h.moves hrun))
    · exact .same rfl rfl

theorem judgeWarning_moves (s : State) : WorkMoves s (judgeWarning s) := by
  unfold judgeWarning
  dsimp only
  split
  · unfold warmInBand
    split
    · exact .warmed (warning := true) rfl rfl
    · exact .same rfl rfl
  · exact .same rfl rfl

theorem judgeShutdown_moves {s : State} (h : WorkOk s) : WorkMoves s (judgeShutdown s) := by
  have judged (thermal : Thermal) (sig : Signalling) : WorkMoves s { s with thermal := thermal, sig := sig } :=
    .same rfl rfl
  exact .trans (judged _ _) (followShutdown_moves (h.moves (judged _ _)) _ _)

theorem thermalSample_moves {s : State} (h : WorkOk s) (t : Int) : WorkMoves s (thermalSample t s) := by
  have coded : WorkMoves s { s with thermal := { s.thermal with code := temperatureCode t } } := .same rfl rfl
  have warned := judgeWarning_moves { s with thermal := { s.thermal with code := temperatureCode t } }
  have hwarned := (h.moves coded).moves warned
  refine .trans coded (.trans warned ?_)
  exact judgeShutdown_moves hwarned

/-! ### The effects of dockets and answers -/

theorem resolve_workMoves {s : State} {seq : Count} {f : FrameFields} (hplace : s.work.length < 8)
    (hbands : FrameBandsOk f.geo ∨ s.intake.phase = .place seq f) : WorkMoves s (resolve seq f s) := by
  unfold resolve
  dsimp only
  split
  · exact .same rfl rfl
  · next e he => exact .added hplace he hbands rfl rfl

theorem frameReturned_workMoves (f : FrameFields) (seq : Count) (s : State) : WorkMoves s (frameReturned f seq s) := by
  unfold frameReturned
  split
  · exact .same rfl rfl
  · next hchecks =>
    split
    · next hplace => exact resolve_workMoves hplace (.inl (frameChecks_bands hchecks))
    · exact .same rfl rfl

theorem resolvePlaced_workMoves (s : State) : WorkMoves s (resolvePlaced s) := by
  unfold resolvePlaced
  split
  · next seq f hphase =>
    split
    · next hfree => exact resolve_workMoves hfree.2 (.inr hphase)
    · exact .same rfl rfl
  · exact .same rfl rfl

/-- A docket of another kind than FRAME leaves the work list and the engine alone. -/
theorem whileReading_same {k : Count → State → State} {s : State} (hwork : ∀ seq, (k seq s).work = s.work)
    (hengine : ∀ seq, (k seq s).engine = s.engine) : WorkMoves s (whileReading k s) := by
  unfold whileReading
  split
  · exact .same (hwork _) (hengine _)
  · exact .same rfl rfl

theorem answerWriteAcked_moves (r : Request) (s : State) : WorkMoves s (answerWriteAcked r s) := by
  obtain he | ⟨x, -, -, ⟨-, he⟩ | ⟨-, he⟩⟩ := answerWriteAcked_cases r s <;> rw [he]
  · exact .same rfl rfl
  · cases hentry : x.ofEntry with
    | true => exact .left (seq := x.answer.seq) (by simp [answerAcked, hentry]) (by simp [answerAcked, hentry])
    | false => exact .same (by simp [answerAcked, hentry]) (by simp [answerAcked, hentry])
  · exact .same rfl rfl

theorem exchangeFault_moves (s : State) : WorkMoves s (exchangeFault s) := by
  unfold exchangeFault
  split
  · exact .cleared rfl rfl
  · exact .same rfl rfl

theorem busError_moves (r : Request) (s : State) : WorkMoves s (busError r s) := by
  unfold busError
  split
  case h_1 => exact .same rfl rfl
  case h_3 => exact .same (imageFault_work s) (imageFault_engine s)
  case h_4 | h_5 => exact bandFailed_moves s
  all_goals exact exchangeFault_moves s

/-! ### Every effect -/

/-- Every effect moves the work list and the engine by `WorkMoves`. -/
theorem effect_workMoves {s : State} (h : WorkOk s) (c : Instr) (r : Request) : WorkMoves s (effect c r s) := by
  cases c with
  | powerOnReset | softReset => exact .cleared rfl rfl
  | tick | eraYoungClear | sync | ack | clearFaults | errorClear | irqEnableUpdate | otherRegisterWrite =>
    exact .same rfl rfl
  | lensMessage line => exact .same (hearLine_work line s) (hearLine_engine line s)
  | quietTimerExpiry =>
    rw [effect_quietTimerExpiry]
    split <;> exact .same rfl rfl
  | temperatureSample t => exact thermalSample_moves h _
  | cancel => exact .same (cancelRequest_work s) (cancelRequest_engine s)
  | modeRun =>
    rw [effect_modeRun]
    split <;> exact .same rfl rfl
  | modeReopen =>
    rw [effect_modeReopen]
    split <;> exact .same rfl rfl
  | postWrite value =>
    rw [effect_postWrite]
    split
    · split
      · exact .same (acceptPost_work _ s) (acceptPost_engine _ s)
      · exact .same rfl rfl
    · exact .same rfl rfl
  | xbaseWrite value =>
    rw [effect_xbaseWrite]
    split
    · split <;> exact .same rfl rfl
    · exact .same rfl rfl
  | setupReadReturn tag bytes => exact .same (setupReturned_work bytes s) (setupReturned_engine bytes s)
  | setupReadFault => exact .same rfl rfl
  | takeDocket =>
    rw [effect_takeDocket]
    split <;> exact .same rfl rfl
  | markDocket =>
    rw [effect_markDocket]
    split <;> exact .same rfl rfl
  | frameDocket tag bytes =>
    exact whileReading_keeps (P := WorkMoves s) (.same rfl rfl) fun seq _ => frameReturned_workMoves _ seq s
  | resolveFrame => exact resolvePlaced_workMoves s
  | installDocket tag bytes => exact whileReading_same (k := installReturned bytes) (by simp) (by simp)
  | dropDocket tag bytes => exact whileReading_same (k := dropReturned bytes) (by simp) (by simp)
  | trimNudge tag bytes => exact whileReading_same (k := nudgeReturned bytes) (by simp) (by simp)
  | trimSet tag bytes => exact whileReading_same (k := setReturned bytes) (by simp) (by simp)
  | badTrimMode tag bytes => exact whileReading_same (k := badModeReturned bytes) (by simp) (by simp)
  | optionsDocket tag bytes => exact whileReading_same (k := optionsReturned bytes) (by simp) (by simp)
  | badKindDocket tag bytes =>
    exact whileReading_same (k := fun seq s => s.answer (refusal seq (docketKind bytes) false .badKind []))
      (fun _ => rfl) (fun _ => rfl)
  | installValidation => exact .same (imageReturned_work _ r s) (imageReturned_engine _ r s)
  | imageReadFault => exact .same (imageFault_work s) (imageFault_engine s)
  | pick => exact State.pick_moves h
  | bandReadReturn tag bytes => exact rowReturned_moves bytes r s
  | bandWriteAck => exact writeAcked_moves r h
  | bandBusError => exact bandFailed_moves s
  | memoryRequestTimeout => exact busError_moves r s
  | drainEnd => exact drainEnd_moves s
  | outcomeTakeUp =>
    rw [effect_outcomeTakeUp]
    split
    · exact .same (takeUpAnswer_work s) (takeUpAnswer_engine s)
    · exact .same rfl rfl
  | outcomeWriteAck => exact answerWriteAcked_moves r s
  | reportWriteTakeUp =>
    rw [effect_reportWriteTakeUp]
    split <;> exact .same rfl rfl
  | reportWriteAck =>
    rw [effect_reportWriteAck]
    split <;> exact .same rfl rfl
  | signallingUpdate =>
    exact withInHand_keeps (P := WorkMoves s) (.same rfl rfl) fun x _ _ =>
      .same (signalAnswer_work x s) (signalAnswer_engine x s)
  | exchangeFault => exact exchangeFault_moves s
  | cancelComplete =>
    rw [effect_cancelComplete]
    split <;> exact .same rfl rfl

/-! ### The bands done -/

/-- What `BandsOk` says of an entry. -/
def EntryBandsOk (e : Entry) : Prop :=
  FrameBandsOk e.geo ∧ e.nextBand ≤ e.geo.bands ∧ (e.state = .waiting → e.nextBand = 0)
    ∧ (e.state = .parked → 1 ≤ e.nextBand ∧ e.nextBand < e.geo.bands)

/-- What `BandsOk` says of the work list and the engine. -/
def ListBandsOk (s : State) : Prop :=
  (∀ e ∈ s.work, EntryBandsOk e)
    ∧ (s.engine.InBand → ∀ e ∈ s.work, e.state = .running → e.nextBand < e.geo.bands)

/-- The frame waiting in PLACE has passed its checks. -/
def PlaceOk (s : State) : Prop := ∀ seq f, s.intake.phase = .place seq f → FrameBandsOk f.geo

theorem bandsOk_iff (s : State) : BandsOk s ↔ ListBandsOk s ∧ PlaceOk s := by
  unfold BandsOk ListBandsOk PlaceOk EntryBandsOk Engine.InBand
  simp [and_assoc]

theorem EntryBandsOk.of_eq {e e' : Entry} (h : EntryBandsOk e) (hgeo : e'.geo = e.geo)
    (hnext : e'.nextBand = e.nextBand) (hstate : e'.state = e.state) : EntryBandsOk e' := by
  unfold EntryBandsOk at *
  rwa [hgeo, hnext, hstate]

/-- The pick finds a band to run in the entry that it takes. -/
theorem EntryBandsOk.lt_of_not_running {e : Entry} (h : EntryBandsOk e) (hstate : e.state ≠ .running) :
    e.nextBand < e.geo.bands := by
  obtain ⟨⟨hone, -⟩, -, hwaiting, hparked⟩ := h
  cases hs : e.state with
  | waiting => rw [hwaiting hs]; exact hone
  | running => exact absurd hs hstate
  | parked => exact (hparked hs).2

theorem EntryBandsOk.run {e : Entry} (h : EntryBandsOk e) : EntryBandsOk { e with state := .running } :=
  ⟨h.1, h.2.1, nofun, nofun⟩

theorem ListBandsOk.of_eq {s t : State} (h : ListBandsOk s) (hwork : t.work = s.work)
    (hband : t.engine.InBand → s.engine.InBand) : ListBandsOk t := by
  obtain ⟨hentries, hrunning⟩ := h
  unfold ListBandsOk
  rw [hwork]
  exact ⟨hentries, fun hb => hrunning (hband hb)⟩

theorem listBandsOk_empty {s : State} (hwork : s.work = []) : ListBandsOk s := by simp [ListBandsOk, hwork]

theorem ListBandsOk.mapRunning {s t : State} (h : ListBandsOk s) {f : Entry → Entry} (hgeo : ∀ e, (f e).geo = e.geo)
    (hnext : ∀ e, (f e).nextBand = e.nextBand) (hstate : ∀ e, (f e).state = e.state)
    (hwork : t.work = Machine.mapRunning f s.work) (hengine : t.engine = s.engine) : ListBandsOk t := by
  obtain ⟨hentries, hrunning⟩ := h
  unfold ListBandsOk
  rw [hwork, hengine]
  refine ⟨forall_mapRunning (fun e he => he.of_eq (hgeo e) (hnext e) (hstate e)) hentries, fun hb x hx hr => ?_⟩
  obtain ⟨hx, -⟩ | ⟨e, he, hre, rfl⟩ := mem_mapRunning hx
  · exact hrunning hb x hx hr
  · rw [hgeo, hnext]
    exact hrunning hb e he hre

theorem ListBandsOk.counted {s t : State} (hwork : WorkOk s) (h : ListBandsOk s) (hband : s.engine.InBand) {tally : Nat}
    (hcounted : t.work = Machine.mapRunning (bandCounted tally) s.work)
    (hengine : t.engine = .outcome
      ∨ (t.engine.InBand ∧ ∀ e, runningEntry s.work = some e → e.nextBand + 1 ≠ e.geo.bands)) : ListBandsOk t := by
  obtain ⟨hentries, hrunning⟩ := h
  obtain ⟨r, hr⟩ := hwork.running_of_busy hband.ne_free
  obtain ⟨hrmem, hrstate⟩ := runningEntry_some hr
  unfold ListBandsOk
  rw [hcounted]
  constructor
  · intro x hx
    obtain ⟨hx, -⟩ | ⟨e, he, hstate, rfl⟩ := mem_mapRunning hx
    · exact hentries x hx
    · obtain ⟨hframe, -⟩ := hentries e he
      refine ⟨hframe, hrunning hband e he hstate, fun hw => ?_, fun hp => ?_⟩
      · cases hstate.symm.trans hw
      · cases hstate.symm.trans hp
  · intro hb x hx hstate
    obtain he | ⟨-, hmore⟩ := hengine
    · obtain ⟨_, _, _, hb⟩ := hb
      cases he.symm.trans hb
    obtain ⟨-, hnot⟩ | ⟨e, he, hestate, rfl⟩ := mem_mapRunning hx
    · exact absurd hstate hnot
    · obtain ⟨-, hone, -⟩ := hwork
      have heq : e = r := running_unique hone he hrmem hestate hrstate
      have hlt : e.nextBand < e.geo.bands := hrunning hband e he hestate
      have hne : e.nextBand + 1 ≠ e.geo.bands := heq ▸ hmore r hr
      exact Nat.lt_of_le_of_ne hlt hne

theorem ListBandsOk.parked {s t : State} (hwork : WorkOk s) (h : ListBandsOk s) (hband : s.engine.InBand) {r : Entry}
    (hr : runningEntry s.work = some r) (hnext : 1 ≤ r.nextBand)
    (hparked : t.work = Machine.mapRunning parkEntry s.work) (hengine : t.engine = .free) : ListBandsOk t := by
  obtain ⟨hentries, hrunning⟩ := h
  obtain ⟨hrmem, hrstate⟩ := runningEntry_some hr
  unfold ListBandsOk
  rw [hparked, hengine]
  constructor
  · intro x hx
    obtain ⟨hx, -⟩ | ⟨e, he, hstate, rfl⟩ := mem_mapRunning hx
    · exact hentries x hx
    · obtain ⟨-, hone, -⟩ := hwork
      have heq : e = r := running_unique hone he hrmem hstate hrstate
      obtain ⟨hframe, hle, -⟩ := hentries e he
      exact ⟨hframe, hle, nofun, fun _ => ⟨heq ▸ hnext, hrunning hband e he hstate⟩⟩
  · rintro ⟨_, _, _, hfree⟩
    cases hfree

theorem ListBandsOk.picked {s t : State} (hwork : WorkOk s) (h : ListBandsOk s) (hfree : s.engine = .free)
    (hany : s.work ≠ []) (hpicked : t.work = pickFrom s.work) : ListBandsOk t := by
  obtain ⟨hentries, -⟩ := h
  have hnone := hwork.no_running hfree
  unfold ListBandsOk
  rw [hpicked]
  refine ⟨forall_pickFrom (fun _ he => he.run) hentries, fun _ x hx hstate => ?_⟩
  obtain ⟨pre, e, post, hsplit, hpick, -⟩ := pickFrom_spec hnone hany
  rw [hpick] at hx
  rw [hsplit] at hentries hnone
  rcases List.mem_append.mp hx with hx | hx
  · exact absurd hstate (hnone x (by simp [hx]))
  rcases List.mem_cons.mp hx with rfl | hx
  · exact (hentries e (by simp)).lt_of_not_running (hnone e (by simp))
  · exact absurd hstate (hnone x (by simp [hx]))

/-- Every move keeps the bands done within their rules. -/
theorem ListBandsOk.moves {s t : State} (hmoves : WorkMoves s t) (hwork : WorkOk s) (h : ListBandsOk s)
    (hplaced : PlaceOk s) : ListBandsOk t := by
  induction hmoves with
  | same hsame hengine => exact h.of_eq hsame (by rw [hengine]; exact id)
  | cleared hempty => exact listBandsOk_empty hempty
  | @added s t seq f e _ hmade hbands hadded hengine =>
    obtain ⟨hentries, hrunning⟩ := h
    obtain ⟨-, hgeo, hwaiting, hnext⟩ := resolution_made hmade
    have hframe : FrameBandsOk e.geo := hgeo ▸ hbands.elim id (hplaced seq f)
    unfold ListBandsOk
    rw [hadded, hengine]
    refine ⟨List.forall_mem_append.mpr ⟨hentries, ?_⟩, fun hb => List.forall_mem_append.mpr ⟨hrunning hb, ?_⟩⟩
    · simp [EntryBandsOk, hframe, hwaiting, hnext]
    · simp [hwaiting]
  | @left s t seq hleft hengine =>
    obtain ⟨hentries, hrunning⟩ := h
    unfold ListBandsOk
    rw [hleft, hengine]
    refine ⟨fun e he => hentries e (List.mem_of_mem_eraseP he), fun hb e he => ?_⟩
    refine hrunning ?_ e (List.mem_of_mem_eraseP he)
    unfold engineAfter at hb
    split at hb
    · obtain ⟨_, _, _, hfree⟩ := hb
      cases hfree
    · exact hb
  | warmed hwarmed hengine =>
    exact h.mapRunning (f := fun e => { e with notes := noteIf _ .warm e.notes }) (fun _ => rfl) (fun _ => rfl)
      (fun _ => rfl) hwarmed hengine
  | served hsame _ _ hband => exact h.of_eq hsame hband
  | picked hfree hany hpicked _ => exact h.picked hwork hfree hany hpicked
  | counted hband hcounted hengine => exact h.counted hwork hband hcounted hengine
  | parked hband hrunning _ hone hparked hengine => exact h.parked hwork hband hrunning hone hparked hengine
  | trans hst _ hintake ihst ihtu => exact ihtu (hwork.moves hst) (ihst hwork h hplaced) (by rwa [PlaceOk, hintake])

/-! ### The frame in PLACE -/

theorem PlaceOk.of_phase {s t : State} (h : PlaceOk s) (hphase : t.intake.phase = s.intake.phase) : PlaceOk t := by
  rwa [PlaceOk, hphase]

theorem PlaceOk.of_intake {s t : State} (h : PlaceOk s) (hintake : t.intake = s.intake) : PlaceOk t :=
  h.of_phase (by rw [hintake])

/-- With the phase another one than PLACE there is nothing to show. -/
theorem placeOk_of_phase {s : State} (h : ∀ seq f, s.intake.phase ≠ .place seq f) : PlaceOk s :=
  fun seq f hphase => absurd hphase (h seq f)

theorem placeOk_answer (s : State) (a : Answer) : PlaceOk (s.answer a) := placeOk_of_phase nofun

theorem placeOk_resolve (seq : Count) (f : FrameFields) (s : State) : PlaceOk (resolve seq f s) := by
  unfold resolve
  dsimp only
  split <;> exact placeOk_of_phase nofun

/-- R114 to R117: a frame waits in PLACE once its checks have passed. -/
theorem placeOk_frameReturned (f : FrameFields) (seq : Count) (s : State) : PlaceOk (frameReturned f seq s) := by
  unfold frameReturned
  split
  · exact placeOk_answer s _
  next hchecks =>
  split
  · exact placeOk_resolve seq f s
  · intro seq' f' hphase
    cases hphase
    exact frameChecks_bands hchecks

theorem placeOk_readMore {s : State} {seq : Count} {slot : Nat} {image : List Byte} {reads : List (Use × Access)}
    (h : s.intake.phase = .executing seq slot image reads) : PlaceOk s.readMore := by
  obtain ⟨rest, hphase⟩ := State.readMore_phase h
  exact placeOk_of_phase (by simp [hphase])

theorem placeOk_installReturned (bytes : List Byte) (seq : Count) (s : State) :
    PlaceOk (installReturned bytes seq s) := by
  unfold installReturned
  dsimp only
  split
  · exact placeOk_answer _ _
  · exact placeOk_readMore rfl

theorem placeOk_validateInstall (image : List Byte) (seq : Count) (slot : Nat) (s : State) :
    PlaceOk (validateInstall image seq slot s) := by
  unfold validateInstall
  split <;> exact placeOk_answer _ _

theorem placeOk_dropReturned (bytes : List Byte) (seq : Count) (s : State) : PlaceOk (dropReturned bytes seq s) := by
  unfold dropReturned
  split <;> exact placeOk_answer _ _

theorem placeOk_trimReturned {bytes : List Byte} {k : Profile → State → State} (hk : ∀ p s, PlaceOk (k p s))
    (seq : Count) (s : State) : PlaceOk (trimReturned bytes k seq s) := by
  unfold trimReturned
  split
  · exact placeOk_answer _ _
  · exact hk _ s

theorem placeOk_nudgeReturned (bytes : List Byte) (seq : Count) (s : State) : PlaceOk (nudgeReturned bytes seq s) := by
  refine placeOk_trimReturned (fun p s => ?_) seq s
  split <;> exact placeOk_answer _ _

theorem placeOk_optionsReturned (bytes : List Byte) (seq : Count) (s : State) :
    PlaceOk (optionsReturned bytes seq s) := by
  unfold optionsReturned
  split <;> exact placeOk_answer _ _

theorem PlaceOk.imageReturned {s : State} (h : PlaceOk s) (bytes : List Byte) (r : Request) :
    PlaceOk (imageReturned bytes r s) := by
  obtain he | ⟨seq, slot, offset, before, unissued, -, -, he⟩ := imageReturned_cases bytes r s
  · rwa [he]
  obtain he | he | he := he <;> rw [he]
  · exact placeOk_readMore rfl
  · exact placeOk_of_phase nofun
  · exact placeOk_validateInstall _ _ _ _

theorem PlaceOk.imageFault {s : State} (h : PlaceOk s) : PlaceOk (imageFault s) := by
  unfold Machine.imageFault withInstall
  split
  · exact placeOk_answer _ _
  · exact h

theorem PlaceOk.resolvePlaced {s : State} (h : PlaceOk s) : PlaceOk (resolvePlaced s) := by
  unfold Machine.resolvePlaced
  split
  · split
    · exact placeOk_resolve _ _ s
    · exact h
  · exact h

theorem PlaceOk.exchangeFault {s : State} (h : PlaceOk s) : PlaceOk (exchangeFault s) := by
  unfold Machine.exchangeFault
  split
  · exact placeOk_of_phase nofun
  · exact h

theorem PlaceOk.busError {s : State} (h : PlaceOk s) (r : Request) : PlaceOk (busError r s) := by
  unfold Machine.busError
  split
  case h_1 => exact h.of_phase rfl
  case h_3 => exact h.imageFault
  case h_4 | h_5 => exact h.of_intake (bandFailed_intake s)
  all_goals exact h.exchangeFault

theorem PlaceOk.setupReturned {s : State} (h : PlaceOk s) (bytes : List Byte) : PlaceOk (setupReturned bytes s) := by
  unfold Machine.setupReturned
  split
  · split
    · exact placeOk_of_phase nofun
    · exact h.of_phase rfl
  · exact h

theorem PlaceOk.answerWriteAcked {s : State} (h : PlaceOk s) (r : Request) : PlaceOk (answerWriteAcked r s) := by
  obtain he | ⟨x, -, -, ⟨-, he⟩ | ⟨-, he⟩⟩ := answerWriteAcked_cases r s <;> rw [he]
  · exact h
  · exact h.of_phase rfl
  · exact h.of_phase rfl

theorem PlaceOk.signalAnswer {s : State} (h : PlaceOk s) (x : InHand) : PlaceOk (signalAnswer x s) := by
  refine PlaceOk.of_intake (s := { s with
    intake := if x.ofEntry then s.intake else { s.intake with phase := .idle } }) ?_ (State.cancelCheck_intake _)
  cases hx : x.ofEntry
  · exact placeOk_of_phase (by simp)
  · exact h.of_phase (by simp)

theorem PlaceOk.effect {s : State} (h : PlaceOk s) (c : Instr) (r : Request) : PlaceOk (effect c r s) := by
  have reading {k : Count → State → State} (hk : ∀ seq, PlaceOk (k seq s)) : PlaceOk (whileReading k s) :=
    whileReading_keeps h fun seq _ => hk seq
  cases c with
  | powerOnReset | softReset => exact placeOk_of_phase nofun
  | tick | eraYoungClear | sync | ack | clearFaults | errorClear | irqEnableUpdate | otherRegisterWrite =>
    exact h.of_phase rfl
  | lensMessage line => exact h.of_intake (hearLine_intake line s)
  | quietTimerExpiry =>
    rw [effect_quietTimerExpiry]
    split <;> exact h.of_phase rfl
  | temperatureSample t => exact h.of_intake (thermalSample_intake _ s)
  | cancel => exact h.of_intake (cancelRequest_intake s)
  | modeRun =>
    rw [effect_modeRun]
    split <;> exact h.of_phase rfl
  | modeReopen =>
    rw [effect_modeReopen]
    split <;> exact h.of_phase rfl
  | postWrite value =>
    rw [effect_postWrite]
    split
    · split
      · exact h.of_intake (acceptPost_intake _ s)
      · exact h.of_phase rfl
    · exact h.of_phase rfl
  | xbaseWrite value =>
    rw [effect_xbaseWrite]
    split
    · split <;> exact h.of_phase rfl
    · exact h.of_phase rfl
  | setupReadReturn tag bytes => exact h.setupReturned bytes
  | setupReadFault => exact h.of_phase rfl
  | takeDocket =>
    rw [effect_takeDocket]
    split
    · exact placeOk_of_phase nofun
    · exact h
  | markDocket =>
    rw [effect_markDocket]
    split
    · exact placeOk_of_phase nofun
    · exact h
  | frameDocket tag bytes => exact reading fun seq => placeOk_frameReturned _ seq s
  | installDocket tag bytes => exact reading fun seq => placeOk_installReturned bytes seq s
  | dropDocket tag bytes => exact reading fun seq => placeOk_dropReturned bytes seq s
  | trimNudge tag bytes => exact reading fun seq => placeOk_nudgeReturned bytes seq s
  | trimSet tag bytes => exact reading fun seq => placeOk_trimReturned (fun _ _ => placeOk_answer _ _) seq s
  | badTrimMode tag bytes => exact reading fun seq => placeOk_trimReturned (fun _ _ => placeOk_answer _ _) seq s
  | optionsDocket tag bytes => exact reading fun seq => placeOk_optionsReturned bytes seq s
  | badKindDocket tag bytes =>
    exact reading (k := fun seq s => s.answer (refusal seq (docketKind bytes) false .badKind []))
      fun seq => placeOk_answer s _
  | installValidation tag bytes => exact h.imageReturned bytes r
  | imageReadFault => exact h.imageFault
  | resolveFrame => exact h.resolvePlaced
  | pick => exact h.of_intake (State.pick_intake s)
  | bandReadReturn tag bytes => exact h.of_intake (rowReturned_intake bytes r s)
  | bandWriteAck => exact h.of_intake (writeAcked_intake r s)
  | bandBusError => exact h.of_intake (bandFailed_intake s)
  | memoryRequestTimeout => exact h.busError r
  | drainEnd => exact h.of_intake (drainEnd_intake s)
  | outcomeTakeUp =>
    rw [effect_outcomeTakeUp]
    split
    · exact h.of_intake (takeUpAnswer_intake s)
    · exact h
  | outcomeWriteAck => exact h.answerWriteAcked r
  | reportWriteTakeUp =>
    rw [effect_reportWriteTakeUp]
    split <;> exact h.of_phase rfl
  | reportWriteAck =>
    rw [effect_reportWriteAck]
    split <;> exact h.of_phase rfl
  | signallingUpdate => exact withInHand_keeps h fun x _ _ => h.signalAnswer x
  | exchangeFault => exact h.exchangeFault
  | cancelComplete =>
    rw [effect_cancelComplete]
    split <;> exact h.of_phase rfl

/-! ### Every step -/

/-- The first part of O57. -/
theorem workOk_step {s t : State} (hwork : WorkOk s) (hentries : ∀ e ∈ s.work, EntryOk e) (h : step s = .next t) :
    WorkOk t ∧ ∀ e ∈ t.work, EntryOk e :=
  step_keeps (P := fun s => WorkOk s ∧ ∀ e ∈ s.work, EntryOk e) (fun _ _ hu => hu) (fun _ _ hu => hu)
    (fun c r _ hu => ⟨hu.1.moves (effect_workMoves hu.1 c r), entriesOk_moves (effect_workMoves hu.1 c r) hu.2⟩)
    ⟨hwork, hentries⟩ h

/-- The second part of O57. -/
theorem bandsOk_step {s t : State} (hwork : WorkOk s) (hbands : BandsOk s) (h : step s = .next t) : BandsOk t := by
  have kept := step_keeps (P := fun s => WorkOk s ∧ ListBandsOk s ∧ PlaceOk s) (fun _ _ hu => hu) (fun _ _ hu => hu)
    (fun c r s hu => by
      obtain ⟨hwork, hlist, hplace⟩ := hu
      have hmoves := effect_workMoves hwork c r
      exact ⟨hwork.moves hmoves, hlist.moves hmoves hwork hplace, hplace.effect c r⟩)
    ⟨hwork, (bandsOk_iff s).mp hbands⟩ h
  exact (bandsOk_iff t).mpr kept.2

end Sys2Proof.Machine

/-! PROOFS. The dockets taken and not yet answered (R84, R96, R111, R118): every step keeps their sequence numbers, the
docket at the intake unit and the answers on the way within `DocketsOk`. -/

namespace Sys2Proof.Machine

/-! ### Steps that leave the dockets where they are -/

/-- A change of the answer in hand that leaves its docket where it is. -/
structure KeepsDocket (g : InHand → InHand) : Prop where
  answer : ∀ x, (g x).answer = x.answer
  ofEntry : ∀ x, (g x).ofEntry = x.ofEntry
  writing : ∀ x, (g x).stage = .writing ↔ x.stage = .writing

theorem keepsDocket_id : KeepsDocket id := ⟨fun _ => rfl, fun _ => rfl, fun _ => Iff.rfl⟩

/-- The work list's dockets, the one at the intake unit, the counts and the map are in `t` as in `s`; the outcome writer
may have got answers of entries, and SETUP and HALTED are not newly entered. -/
structure SameDockets (s t : State) : Prop where
  seqs : t.work.map Entry.seq = s.work.map Entry.seq
  phase : t.intake.phase = s.intake.phase
  taken : t.intake.taken = s.intake.taken
  retired : t.intake.retired = s.intake.retired
  map : t.intake.map = s.intake.map
  hand : ∃ g, KeepsDocket g ∧ t.writer.inHand = s.writer.inHand.map g
  waiting : ∃ as, t.writer.waiting = s.writer.waiting ++ as ∧ as.flatMap WaitingAnswer.docket = []
    ∧ (s.work = [] → as = [])
  working : t.working = false → s.working = false

theorem KeepsDocket.docket {g : InHand → InHand} (hg : KeepsDocket g) (x : InHand) : (g x).docket = x.docket := by
  unfold InHand.docket
  rw [hg.answer, hg.ofEntry]
  simp only [hg.writing]

theorem SameDockets.atIntake {s t : State} (h : SameDockets s t) : t.atIntake = s.atIntake := by
  obtain ⟨g, hg, hhand⟩ := h.hand
  obtain ⟨as, hwaiting, hdockets, -⟩ := h.waiting
  unfold State.atIntake
  rw [h.phase, hhand, hwaiting, List.flatMap_append, hdockets, List.append_nil]
  cases s.writer.inHand with
  | none => rfl
  | some x => simp [hg.docket]

theorem SameDockets.unanswered {s t : State} (h : SameDockets s t) : t.unanswered = s.unanswered := by
  rw [State.unanswered, State.unanswered, h.seqs, h.atIntake]

theorem SameDockets.ofIntake {s t : State} (h : SameDockets s t) : t.writer.ofIntake = s.writer.ofIntake := by
  obtain ⟨g, hg, hhand⟩ := h.hand
  obtain ⟨as, hwaiting, hdockets, -⟩ := h.waiting
  unfold OutcomeWriter.ofIntake
  rw [hhand, hwaiting, List.flatMap_append, hdockets, List.append_nil]
  cases s.writer.inHand with
  | none => rfl
  | some x => simp [hg.ofEntry, List.countP_cons]

theorem mem_work_of_seqs {s t : State} (hseqs : t.work.map Entry.seq = s.work.map Entry.seq) {seq : Count}
    (h : ∃ e ∈ s.work, e.seq = seq) : ∃ e ∈ t.work, e.seq = seq := by
  rwa [← List.mem_map, hseqs, List.mem_map]

theorem DocketsOk.of_same {s t : State} (h : DocketsOk s) (hsame : SameDockets s t) : DocketsOk t := by
  obtain ⟨horder, hopen, hlast, hwriting, hlisted, hidle⟩ := h
  unfold DocketsOk
  rw [hsame.unanswered, hsame.atIntake, hsame.ofIntake, hsame.phase, hsame.taken, hsame.retired, hsame.map]
  refine ⟨horder, hopen, hlast, hwriting, fun y hy hentry hstage => ?_, fun hstate => ?_⟩
  · obtain ⟨g, hg, hhand⟩ := hsame.hand
    obtain ⟨x, hx, rfl⟩ := Option.map_eq_some_iff.mp (hhand.symm.trans hy)
    rw [hg.answer]
    exact mem_work_of_seqs hsame.seqs (hlisted x hx (hg.ofEntry x ▸ hentry) ((hg.writing x).mp hstage))
  · obtain ⟨hphase, hwork, hwriter⟩ := hidle ((State.not_working_iff s).mp
      (hsame.working ((State.not_working_iff t).mpr hstate)))
    obtain ⟨g, -, hhand⟩ := hsame.hand
    obtain ⟨as, hwaiting, -, hnone⟩ := hsame.waiting
    refine ⟨hphase, ?_, ?_⟩
    · exact List.map_eq_nil_iff.mp (by rw [hsame.seqs, hwork]; rfl)
    · have hhand' : t.writer.inHand = none := by rw [hhand, hwriter]; rfl
      have hwaiting' : t.writer.waiting = [] := by rw [hwaiting, hnone hwork, hwriter]; rfl
      cases hw : t.writer with
      | mk inHand waiting => rw [hw] at hhand' hwaiting'; simp_all

theorem SameDockets.of_writer {s t : State} (hseqs : t.work.map Entry.seq = s.work.map Entry.seq)
    (hintake : t.intake = s.intake) {as : List WaitingAnswer} (hwriter : t.writer = s.writer.add as)
    (hdockets : as.flatMap WaitingAnswer.docket = []) (hnone : s.work = [] → as = [])
    (hworking : t.working = false → s.working = false) : SameDockets s t where
  seqs := hseqs
  phase := by rw [hintake]
  taken := by rw [hintake]
  retired := by rw [hintake]
  map := by rw [hintake]
  hand := ⟨id, keepsDocket_id, by rw [hwriter, Option.map_id_fun]; rfl⟩
  waiting := ⟨as, by rw [hwriter]; rfl, hdockets, hnone⟩
  working := hworking

theorem OutcomeWriter.add_nil (w : OutcomeWriter) : w.add [] = w := by simp [OutcomeWriter.add]

/-- With the dockets' fields as before. -/
theorem SameDockets.of_eq {s t : State} (hseqs : t.work.map Entry.seq = s.work.map Entry.seq)
    (hintake : t.intake = s.intake) (hwriter : t.writer = s.writer)
    (hworking : t.working = false → s.working = false) : SameDockets s t :=
  .of_writer hseqs hintake (hwriter.trans s.writer.add_nil.symm) rfl (fun _ => rfl) hworking

theorem DocketsOk.of_eq {s t : State} (h : DocketsOk s) (hwork : t.work = s.work) (hintake : t.intake = s.intake)
    (hwriter : t.writer = s.writer) (hworking : t.working = false → s.working = false) : DocketsOk t :=
  h.of_same (.of_eq (by rw [hwork]) hintake hwriter hworking)

theorem working_of_win_eq {s t : State} (h : t.win = s.win) : t.working = s.working := by
  rw [State.working, State.working, h]

theorem working_of_win {s t : State} (h : t.win = s.win) : t.working = false → s.working = false := by
  rw [working_of_win_eq h]
  exact id

/-- SETUP and HALTED: nothing taken is unanswered. -/
theorem docketsOk_empty {s : State} (hphase : s.intake.phase = .idle) (hwork : s.work = [])
    (hwriter : s.writer = { inHand := none, waiting := [] }) : DocketsOk s := by
  have hat : s.atIntake = [] := by simp [State.atIntake, hphase, hwriter, IntakePhase.docket]
  have hnone : s.unanswered = [] := by simp [State.unanswered, hwork, hat]
  unfold DocketsOk
  rw [hnone, hat, hphase, hwork, hwriter]
  exact ⟨.nil, List.forall_mem_nil _, List.forall_mem_nil _, rfl, fun _ hx => (Option.not_mem_none _ hx).elim,
    fun _ => ⟨rfl, rfl, rfl⟩⟩

/-- While the phase is not WRITING, neither part of the outcome writer holds a docket. -/
theorem DocketsOk.writer_of_not_writing {s : State} (h : DocketsOk s) (hp : s.intake.phase ≠ .writing) :
    s.writer.waiting.flatMap WaitingAnswer.docket = [] ∧ s.writer.inHand.toList.flatMap InHand.docket = [] := by
  obtain ⟨hwaiting, hhand, -⟩ := h.not_writing hp
  refine ⟨hwaiting, List.flatMap_eq_nil_iff.mpr fun x hx => ?_⟩
  simp [InHand.docket, hhand x (by simpa using hx)]

theorem DocketsOk.ofIntake_eq_zero {s : State} (h : DocketsOk s) (hp : s.intake.phase ≠ .writing) :
    s.writer.ofIntake = 0 := by
  obtain ⟨-, -, -, hwriting, -⟩ := h
  rwa [if_neg hp] at hwriting

theorem ofIntake_add_intake (w : OutcomeWriter) (a : Answer) : (w.add [.intake a]).ofIntake = w.ofIntake + 1 := by
  simp only [OutcomeWriter.ofIntake, OutcomeWriter.add_waiting, OutcomeWriter.add_inHand, List.flatMap_append,
    List.length_append, List.flatMap_cons, List.flatMap_nil, WaitingAnswer.docket, List.append_nil,
    List.length_singleton]
  omega

/-! ### Taking and marking (R112, R168) -/

/-- The intake unit, IDLE, passes the docket at the taken count. -/
theorem DocketsOk.advance {s t : State} (hcounts : CountsOk s) (h : DocketsOk s) (hidle : s.intake.phase = .idle)
    (hpost : s.intake.taken ≠ s.win.post) {phase : IntakePhase} (hintake : t.intake = s.intake.advance phase)
    (hat : t.atIntake = [s.intake.taken]) (hof : t.writer.ofIntake = if phase = .writing then 1 else 0)
    (hhand : t.writer.inHand = s.writer.inHand) (hwork : t.work = s.work) (hworking : t.working = true) :
    DocketsOk t := by
  have hnotWriting : s.intake.phase ≠ .writing := hidle ▸ nofun
  obtain ⟨-, -, hnone⟩ := h.not_writing hnotWriting
  rw [hidle, IntakePhase.docket] at hnone
  obtain ⟨horder, hopen, -, -, hlisted, -⟩ := h
  obtain ⟨htakenPost, -, -, -⟩ := hcounts
  obtain ⟨hnext, -⟩ := ahead_succ _ _ _ htakenPost hpost
  have hretired : t.intake.retired = s.intake.retired := by rw [hintake]; rfl
  have htaken : t.intake.taken = s.intake.taken + 1 := by rw [hintake]; rfl
  have hmap : t.intake.map = clearFlag s.intake.map s.intake.taken := by rw [hintake]; rfl
  have hphase : t.intake.phase = phase := by rw [hintake]; rfl
  have hunanswered : t.unanswered = s.unanswered ++ [s.intake.taken] := by
    rw [State.unanswered, State.unanswered, hwork, hat, hnone, List.append_nil]
  unfold DocketsOk
  rw [hunanswered, hat, hretired, htaken, hmap, hphase, hnext, hhand, hwork]
  have hflag : ∀ seq : Count, (clearFlag s.intake.map s.intake.taken).getLsbD (seq.toNat % 64)
      = (s.intake.map.getLsbD (seq.toNat % 64) && decide (seq.toNat % 64 ≠ s.intake.taken.toNat % 64)) :=
    fun seq => getLsbD_clearFlag _ _ (Nat.mod_lt _ (Nat.zero_lt_succ _))
  refine ⟨List.pairwise_append.mpr ⟨horder, List.pairwise_singleton _ _, fun a ha b hb => ?_⟩,
    List.forall_mem_append.mpr ⟨fun seq hseq => ?_, ?_⟩, by simp, hof, hlisted, fun hstate => ?_⟩
  · rw [List.mem_singleton.mp hb]
    exact (hopen a ha).1
  · obtain ⟨hbelow, hclear⟩ := hopen seq hseq
    exact ⟨by omega, by rw [hflag, hclear]; rfl⟩
  · exact List.forall_mem_singleton.mpr ⟨Nat.lt_succ_self _, by rw [hflag]; simp⟩
  · rw [(State.not_working_iff t).mpr hstate] at hworking
    cases hworking

theorem DocketsOk.takeDocket {s : State} (hcounts : CountsOk s) (h : DocketsOk s) (port : Port)
    (hcan : s.canTake = true) :
    DocketsOk { s with intake := s.intake.advance (.reading s.intake.taken), port := port } := by
  simp only [State.canTake, Bool.and_eq_true, beq_iff_eq, bne_iff_ne] at hcan
  obtain ⟨⟨⟨⟨hworking, hidle⟩, -⟩, -⟩, hpost⟩ := hcan
  obtain ⟨hwaiting, hhand⟩ := h.writer_of_not_writing (hidle ▸ nofun)
  have hzero := h.2.2.2.1
  rw [hidle] at hzero
  refine DocketsOk.advance hcounts h hidle hpost rfl ?_ hzero rfl rfl hworking
  simp [State.atIntake, Intake.advance, IntakePhase.docket, hwaiting, hhand]

theorem DocketsOk.markDocket {s : State} (hcounts : CountsOk s) (h : DocketsOk s) (hcan : s.canMark = true) :
    DocketsOk { s with
      intake := s.intake.advance .writing, writer := s.writer.add [.intake (markedAnswer s.intake.taken)] } := by
  obtain ⟨hready, hboundary⟩ := Bool.and_eq_true_iff.mp hcan
  obtain ⟨hworking, hidle⟩ := Bool.and_eq_true_iff.mp hready
  replace hidle : s.intake.phase = .idle := by simpa using hidle
  obtain ⟨hwaiting, hhand⟩ := h.writer_of_not_writing (hidle ▸ nofun)
  have hpost : s.intake.taken ≠ s.win.post := by
    split at hboundary
    · next c hc =>
      intro heq
      obtain ⟨hlow, hhigh⟩ := hcounts.2.2.1 c hc
      rw [← heq] at hhigh
      exact (by simpa using hboundary : s.intake.taken ≠ c.boundary) (ahead_inj (Nat.le_antisymm hlow hhigh))
    · cases hboundary
  refine DocketsOk.advance hcounts h hidle hpost rfl ?_ ?_ rfl rfl hworking
  · simp [State.atIntake, Intake.advance, IntakePhase.docket, hwaiting, hhand, WaitingAnswer.docket, markedAnswer]
  · rw [ofIntake_add_intake, h.ofIntake_eq_zero (hidle ▸ nofun)]
    rfl

/-! ### The handling of the docket at the intake unit (R113) -/

theorem IntakePhase.ne_writing {p : IntakePhase} {seq : Count} (h : p.docket = [seq]) : p ≠ .writing := by
  rintro rfl
  cases h

theorem DocketsOk.working_of_docket {s : State} (h : DocketsOk s) {seq : Count}
    (hphase : s.intake.phase.docket = [seq]) :
    s.working = true := by
  obtain ⟨-, -, -, -, -, hidle⟩ := h
  by_contra hnot
  obtain ⟨hp, -⟩ := hidle ((State.not_working_iff s).mp (by simpa using hnot))
  rw [hp] at hphase
  cases hphase

/-- The dockets unanswered stay the same ones where docket `seq` moves from the phase on. -/
theorem DocketsOk.docketMoves {s t : State} (h : DocketsOk s) {seq : Count} (hphase : s.intake.phase.docket = [seq])
    (hmoves : IntakeMoves seq s t) : DocketsOk t := by
  have hnotWriting := IntakePhase.ne_writing hphase
  have hworking := h.working_of_docket hphase
  obtain ⟨hwaiting, hhand⟩ := h.writer_of_not_writing hnotWriting
  obtain ⟨-, hhandEntry, hat⟩ := h.not_writing hnotWriting
  have hzero := h.ofIntake_eq_zero hnotWriting
  rw [hphase] at hat
  obtain ⟨horder, hopen, hlast, -, hlisted, -⟩ := h
  obtain ⟨hwin, htaken, hretired, hmap, hmoved⟩ := hmoves
  rw [← working_of_win_eq hwin] at hworking
  suffices hparts : t.unanswered = s.unanswered ∧ (∀ q ∈ t.atIntake, q ∈ s.atIntake)
      ∧ t.writer.ofIntake = (if t.intake.phase = .writing then 1 else 0)
      ∧ t.writer.inHand = s.writer.inHand ∧ ∀ e ∈ s.work, e ∈ t.work by
    obtain ⟨hunanswered, hsub, hof, hsame, hkept⟩ := hparts
    unfold DocketsOk
    rw [hunanswered, hretired, htaken, hmap, hsame]
    refine ⟨horder, hopen, fun q hq => hlast q (hsub q hq), hof, fun x hx hentry hstage => ?_, fun hstate => ?_⟩
    · obtain ⟨e, he, hseq⟩ := hlisted x hx hentry hstage
      exact ⟨e, hkept e he, hseq⟩
    · rw [(State.not_working_iff t).mpr hstate] at hworking
      cases hworking
  obtain ⟨a, rfl, hp, hwriter, hwork⟩ | ⟨hp, hwriter, hwork⟩ | ⟨e, waiting, rfl, hp, hwork, hdockets, hwriter⟩ := hmoved
  · have hat' : t.atIntake = s.atIntake := by
      rw [hat, State.atIntake, hp, hwriter]
      simp [IntakePhase.docket, WaitingAnswer.docket, hwaiting, hhand]
    refine ⟨by rw [State.unanswered, hwork, hat', State.unanswered], fun q hq => hat' ▸ hq, ?_, by rw [hwriter]; rfl,
      fun e he => hwork ▸ he⟩
    rw [hwriter, ofIntake_add_intake, hzero, hp]
    rfl
  · have hat' : t.atIntake = s.atIntake := by
      rw [hat, State.atIntake, hp, hwriter]
      simp [hwaiting, hhand]
    refine ⟨by rw [State.unanswered, hwork, hat', State.unanswered], fun q hq => hat' ▸ hq, ?_, by rw [hwriter],
      fun e he => hwork ▸ he⟩
    rw [hwriter, hzero, if_neg (IntakePhase.ne_writing hp)]
  · have hat' : t.atIntake = [] := by
      rw [State.atIntake, hp, hwriter]
      simp [IntakePhase.docket, hwaiting, hhand, hdockets]
    refine ⟨by rw [State.unanswered, hwork, hat', State.unanswered, hat]; simp, fun q hq => by simp [hat'] at hq, ?_,
      by rw [hwriter]; rfl, fun x hx => by simp [hwork, hx]⟩
    rw [hp, hwriter, ← hzero]
    simp [OutcomeWriter.ofIntake, hdockets, hwaiting]

theorem DocketsOk.docketStep {s t : State} (h : DocketsOk s) (hstep : DocketStep s t) : DocketsOk t := by
  obtain rfl | ⟨seq, hphase, hmoves⟩ := hstep
  · exact h
  · exact h.docketMoves hphase hmoves

/-! ### The outcome writer -/

theorem sameDockets_cancelCheck (s : State) : SameDockets s s.cancelCheck := by
  obtain h | ⟨c, -, -, -, h⟩ := s.cancelCheck_cases <;> rw [h]
  · exact .of_eq rfl rfl rfl id
  · exact .of_eq rfl rfl rfl id


theorem DocketsOk.working_of_hand {s : State} (h : DocketsOk s) {x : InHand} (hx : s.writer.inHand = some x) :
    s.working = true := by
  obtain ⟨-, -, -, -, -, hidle⟩ := h
  by_contra hnot
  obtain ⟨-, -, hwriter⟩ := hidle ((State.not_working_iff s).mp (by simpa using hnot))
  rw [hwriter] at hx
  cases hx

/-- The intake unit's own answer in hand: the phase is WRITING and the writer has no other of its answers. -/
theorem DocketsOk.own_hand {s : State} (h : DocketsOk s) {x : InHand} (hx : s.writer.inHand = some x)
    (hown : x.ofEntry = false) :
    s.intake.phase = .writing ∧ s.writer.waiting.flatMap WaitingAnswer.docket = [] := by
  obtain ⟨-, -, -, hwriting, -⟩ := h
  have hone : s.writer.inHand.toList.countP (fun y => !y.ofEntry) = 1 := by simp [hx, hown]
  rw [OutcomeWriter.ofIntake, hone] at hwriting
  by_cases hp : s.intake.phase = .writing
  · rw [if_pos hp] at hwriting
    exact ⟨hp, List.length_eq_zero_iff.mp (by omega)⟩
  · rw [if_neg hp] at hwriting
    omega

/-- R118, R121: docket `q`, whose answer is complete, leaves the dockets unanswered; the retire check passes none of the
others. -/
theorem DocketsOk.answered {s t : State} (hcounts : CountsOk s) (h : DocketsOk s) {q : Count} (hq : q ∈ s.unanswered)
    (hleft : t.unanswered = s.unanswered.erase q) (hat : ∀ seq ∈ t.atIntake, seq ∈ s.atIntake)
    (hretired : t.intake.retired
      = retireFrom (setFlag s.intake.map q) (ahead s.intake.retired s.intake.taken) s.intake.retired)
    (htaken : t.intake.taken = s.intake.taken) (hmap : t.intake.map = setFlag s.intake.map q)
    (hphase : t.intake.phase = s.intake.phase) (hof : t.writer.ofIntake = s.writer.ofIntake)
    (hdone : ∀ x, t.writer.inHand = some x → x.stage ≠ .writing) (hworking : t.working = true) : DocketsOk t := by
  obtain ⟨horder, hopen, hlast, hwriting, -, -⟩ := h
  obtain ⟨htakenPost, hpostMax, -⟩ := hcounts
  have hnodup : s.unanswered.Nodup := 
    horder.imp fun {a b} hlt (heq : a = b) => by rw [heq] at hlt; exact Nat.lt_irrefl _ hlt
  have hrest : ∀ x ∈ s.unanswered.erase q, ahead s.intake.retired x < ahead s.intake.retired s.intake.taken
      ∧ s.intake.map.getLsbD (x.toNat % 64) = false ∧ x ≠ q := fun x hx =>
    have hmem := (List.Nodup.mem_erase_iff hnodup).mp hx
    ⟨(hopen x hmem.2).1, (hopen x hmem.2).2, hmem.1⟩
  obtain ⟨horder', hopen'⟩ := retireFrom_open (Nat.le_trans htakenPost hpostMax) (hopen q hq).1
    (horder.sublist List.erase_sublist) hrest
  unfold DocketsOk
  rw [hleft, hretired, htaken, hmap, hphase, hof]
  refine ⟨horder', hopen', fun seq hseq => hlast seq (hat seq hseq), hwriting,
    fun x hx _ hstage => absurd hstage (hdone x hx), fun hstate => ?_⟩
  rw [(State.not_working_iff t).mpr hstate] at hworking
  cases hworking

theorem answerAcked_hand {s : State} (x : InHand) :
    ∃ y, (answerAcked x s).writer.inHand = some y ∧ y.answer = x.answer ∧ y.ofEntry = x.ofEntry
      ∧ y.stage ≠ .writing := by
  refine ⟨_, rfl, rfl, rfl, ?_⟩
  dsimp only
  split <;> exact nofun

theorem DocketsOk.answerAcked {s : State} (hcounts : CountsOk s) (h : DocketsOk s) {x : InHand}
    (hx : s.writer.inHand = some x) (hstage : x.stage = .writing) : DocketsOk (answerAcked x s) := by
  obtain ⟨y, hy, -, hentry, hdone⟩ := answerAcked_hand (s := s) x
  have hof : (Machine.answerAcked x s).writer.ofIntake = s.writer.ofIntake := by
    unfold OutcomeWriter.ofIntake
    rw [hy, hx]
    simp [List.countP_cons, hentry, Machine.answerAcked]
  have hat' : (Machine.answerAcked x s).atIntake
      = s.intake.phase.docket ++ s.writer.waiting.flatMap WaitingAnswer.docket := by
    unfold State.atIntake
    rw [hy]
    simp [InHand.docket, hdone, Machine.answerAcked, Intake.answered]
  have finish (hq : x.answer.seq ∈ s.unanswered)
      (hleft : (Machine.answerAcked x s).unanswered = s.unanswered.erase x.answer.seq) :
      DocketsOk (Machine.answerAcked x s) := by
    refine DocketsOk.answered hcounts h hq hleft (fun seq hseq => ?_) rfl rfl rfl rfl hof (fun z hz => ?_)
      (h.working_of_hand hx)
    · rw [hat'] at hseq
      exact List.mem_append_left _ hseq
    · cases hy.symm.trans hz
      exact hdone
  obtain ⟨horder, -, -, -, hlisted, -⟩ := id h
  cases hown : x.ofEntry with
  | true =>
    have hat : s.atIntake = (Machine.answerAcked x s).atIntake := by
      rw [hat', State.atIntake, hx]
      simp [InHand.docket, hown]
    have hmem : x.answer.seq ∈ s.work.map Entry.seq := List.mem_map.mpr (hlisted x hx hown hstage)
    refine finish (List.mem_append_left _ hmem) ?_
    rw [State.unanswered, ← hat, State.unanswered, List.erase_append_left _ hmem, ← leaveList_seq]
    simp [Machine.answerAcked, hown]
  | false =>
    obtain ⟨hphase, hwaiting⟩ := h.own_hand hx hown
    have hat : s.atIntake = [x.answer.seq] := by
      rw [State.atIntake, hx, hphase, hwaiting]
      simp [InHand.docket, hown, hstage, IntakePhase.docket]
    rw [hphase, hwaiting] at hat'
    have hnot : x.answer.seq ∉ s.work.map Entry.seq := by
      intro hmem
      rw [State.unanswered, hat] at horder
      exact Nat.lt_irrefl _ ((List.pairwise_append.mp horder).2.2 _ hmem _ (List.mem_singleton_self _))
    refine finish (by simp [State.unanswered, hat]) ?_
    rw [State.unanswered, State.unanswered, hat', hat, List.erase_append_right _ hnot]
    simp [Machine.answerAcked, hown, IntakePhase.docket]

theorem DocketsOk.issueAnswerWrite {s : State} (h : DocketsOk s) {x : InHand} (hx : s.writer.inHand = some x) :
    DocketsOk (issueAnswerWrite x s) := by
  refine h.of_same ⟨rfl, rfl, rfl, rfl, rfl, ⟨fun y => { y with unissued := y.unissued.drop 1 }, ?_, ?_⟩, ⟨[], ?_⟩, id⟩
  · exact ⟨fun _ => rfl, fun _ => rfl, fun _ => Iff.rfl⟩
  · rw [hx]; rfl
  · exact ⟨(List.append_nil _).symm, rfl, fun _ => rfl⟩

theorem DocketsOk.answerWriteAcked {s : State} (hcounts : CountsOk s) (h : DocketsOk s) (r : Request) :
    DocketsOk (answerWriteAcked r s) := by
  obtain he | ⟨x, hx, hstage, ⟨-, he⟩ | ⟨-, he⟩⟩ := answerWriteAcked_cases r s <;> rw [he]
  · exact h
  · exact DocketsOk.answerAcked hcounts h hx hstage
  · exact h.issueAnswerWrite hx

/-- R97: the answer taken up was the first one waiting. -/
theorem DocketsOk.takeUp {s t : State} (h : DocketsOk s) {next : WaitingAnswer} {rest : List WaitingAnswer}
    (hhand : s.writer.inHand = none) (hwaiting : s.writer.waiting = next :: rest)
    (hrest : t.writer.waiting = rest) (hdocket : t.writer.inHand.toList.flatMap InHand.docket = next.docket)
    (hcount : t.writer.inHand.toList.countP (fun y => !y.ofEntry) = next.docket.length)
    (hlisted : ∀ x, t.writer.inHand = some x → x.ofEntry = true → ∃ e ∈ s.work, e.seq = x.answer.seq)
    (hwork : t.work = s.work) (hintake : t.intake = s.intake) (hwin : t.win = s.win) : DocketsOk t := by
  obtain ⟨horder, hopen, hlast, hwriting, -, hidle⟩ := h
  have hof : t.writer.ofIntake = s.writer.ofIntake := by
    rw [OutcomeWriter.ofIntake, OutcomeWriter.ofIntake, hhand, hwaiting, hrest, hcount, List.flatMap_cons,
      List.length_append, Option.toList_none, List.countP_nil, Nat.add_zero, Nat.add_comm]
  have hshort : next.docket = [] ∨ rest.flatMap WaitingAnswer.docket = [] := by
    rw [OutcomeWriter.ofIntake, hwaiting, List.flatMap_cons, List.length_append] at hwriting
    rw [← List.length_eq_zero_iff, ← List.length_eq_zero_iff]
    split at hwriting <;> omega
  have heq : t.atIntake = s.atIntake := by
    unfold State.atIntake
    rw [hhand, hwaiting, hrest, hdocket, hintake, List.flatMap_cons]
    obtain hnone | hnone := hshort <;> simp [hnone]
  have hunanswered : t.unanswered = s.unanswered := by rw [State.unanswered, State.unanswered, hwork, heq]
  unfold DocketsOk
  rw [hunanswered, heq, hof, hwork, hintake, hwin]
  refine ⟨horder, hopen, hlast, hwriting, fun x hx hentry _ => hlisted x hx hentry, fun hstate => ?_⟩
  obtain ⟨-, -, hwriter⟩ := hidle hstate
  rw [hwriter] at hwaiting
  cases hwaiting

theorem DocketsOk.takeUpAnswer {s : State} (h : DocketsOk s) : DocketsOk (takeUpAnswer s) := by
  unfold Machine.takeUpAnswer
  split
  · next next rest hhand hwaiting =>
    cases next with
    | intake a =>
      exact DocketsOk.takeUp h hhand hwaiting rfl rfl rfl (fun x hx hentry => by cases hx; cases hentry) rfl rfl rfl
    | entry seq v =>
      cases hfind : s.work.find? fun e => e.seq == seq with
      | none =>
        simp only [takenAnswer, hfind, Option.map_none]
        exact DocketsOk.takeUp h hhand hwaiting rfl rfl rfl (fun _ hx => (Option.not_mem_none _ hx).elim) rfl rfl rfl
      | some e =>
        simp only [takenAnswer, hfind, Option.map_some]
        refine DocketsOk.takeUp h hhand hwaiting rfl rfl rfl (fun x hx _ => ?_) rfl rfl rfl
        cases hx
        exact ⟨e, List.mem_of_find?_eq_some hfind, rfl⟩
  · exact h

/-- R138: the update handed over, the outcome writer is free and intake IDLE after its own answer. -/
theorem DocketsOk.signalAnswer {s : State} (h : DocketsOk s) {x : InHand} (hx : s.writer.inHand = some x)
    (hstage : x.stage = .update) : DocketsOk (signalAnswer x s) := by
  have hworking := h.working_of_hand hx
  have hdocket : x.docket = [] := by simp [InHand.docket, hstage]
  have freed (intake : Intake) (sig : Signalling)
      (hphase : x.ofEntry = true ∧ intake = s.intake
        ∨ x.ofEntry = false ∧ intake = { s.intake with phase := .idle }) :
      DocketsOk { s with sig := sig, writer := { s.writer with inHand := none }, intake := intake } := by
    have hsame : intake.phase.docket = s.intake.phase.docket ∧ intake.taken = s.intake.taken
        ∧ intake.retired = s.intake.retired ∧ intake.map = s.intake.map
        ∧ (s.writer.waiting.flatMap WaitingAnswer.docket).length = if intake.phase = .writing then 1 else 0 := by
      obtain ⟨hentry, rfl⟩ | ⟨hown, rfl⟩ := hphase
      · obtain ⟨-, -, -, hwriting, -⟩ := h
        refine ⟨rfl, rfl, rfl, rfl, ?_⟩
        rw [← hwriting, OutcomeWriter.ofIntake, hx]
        simp [hentry]
      · obtain ⟨hp, hwaiting⟩ := h.own_hand hx hown
        exact ⟨by rw [hp]; rfl, rfl, rfl, rfl, by rw [hwaiting]; rfl⟩
    obtain ⟨hphase, htaken, hretired, hmap, hof⟩ := hsame
    obtain ⟨horder, hopen, hlast, -⟩ := h
    have hat : State.atIntake { s with sig := sig, writer := { s.writer with inHand := none }, intake := intake }
        = s.atIntake := by
      simp [State.atIntake, hphase, hx, hdocket]
    have hunanswered : State.unanswered { s with
        sig := sig, writer := { s.writer with inHand := none }, intake := intake } = s.unanswered := by
      rw [State.unanswered, hat, State.unanswered]
    unfold DocketsOk
    rw [hunanswered, hat]
    simp only [htaken, hretired, hmap]
    refine ⟨horder, hopen, hlast, hof, fun _ hy => (Option.not_mem_none _ hy).elim, fun hstate => ?_⟩
    rw [State.working_of_idle hstate] at hworking
    cases hworking
  refine DocketsOk.of_same (freed _ (s.sig.update x.answer.rush x.answer.outcome (x.metPost || s.retiredIsPost)) ?_)
    (sameDockets_cancelCheck _)
  cases hown : x.ofEntry
  · exact .inr ⟨rfl, rfl⟩
  · exact .inl ⟨rfl, rfl⟩

end Sys2Proof.Machine

/-! PROOFS. The rest of O57: what the engine, the temperature sample, a cancel and the resets do to the dockets not yet
answered. -/

namespace Sys2Proof.Machine

/-! ### The engine -/

theorem runningAnswer_docket (work : List Entry) (v : Verdict) :
    (runningAnswer work v).flatMap WaitingAnswer.docket = [] := by
  unfold runningAnswer
  cases runningEntry work <;> rfl

theorem sameDockets_toOutcome (s : State) (v : Verdict) : SameDockets s (s.toOutcome v) :=
  .of_writer rfl rfl rfl (runningAnswer_docket s.work v) (fun h => by simp [runningAnswer, runningEntry, h]) id

theorem sameDockets_stopBand (s : State) (v : Verdict) : SameDockets s (s.stopBand v) := by
  unfold State.stopBand
  dsimp only
  split
  · exact .of_eq rfl rfl rfl id
  · exact .of_writer rfl rfl rfl (runningAnswer_docket s.work v) (fun h => by simp [runningAnswer, runningEntry, h]) id

@[simp] theorem startBand_seq (s : State) : (startBand s).work.map Entry.seq = s.work.map Entry.seq := by
  unfold startBand
  split
  · rfl
  · dsimp only
    split <;> simp

@[simp] theorem State.pick_seq (s : State) : s.pick.work.map Entry.seq = s.work.map Entry.seq := by
  unfold State.pick
  split <;> simp

theorem DocketsOk.pick {s : State} (h : DocketsOk s) : DocketsOk s.pick :=
  h.of_same (.of_eq s.pick_seq (State.pick_intake s) (State.pick_writer s) (working_of_win (State.pick_win s)))

theorem DocketsOk.bandDone {s : State} (h : DocketsOk s) (tally : Nat) : DocketsOk (bandDone tally s) := by
  have counted : DocketsOk { s with work := mapRunning (bandCounted tally) s.work } :=
    h.of_same (.of_eq (mapRunning_seq (f := bandCounted tally) (fun _ => rfl) _) rfl rfl id)
  unfold Machine.bandDone
  dsimp only
  split
  · exact counted
  split
  · exact counted.of_same (sameDockets_toOutcome _ _)
  split
  · exact counted.of_same (sameDockets_toOutcome _ _)
  split
  · apply DocketsOk.pick
    exact counted.of_same (.of_eq (mapRunning_seq (f := parkEntry) (fun _ => rfl) _) rfl rfl id)
  · exact counted.of_same (.of_eq (startBand_seq _) (startBand_intake _) (startBand_writer _)
      (working_of_win (startBand_win _)))

theorem DocketsOk.writeAcked {s : State} (h : DocketsOk s) (r : Request) : DocketsOk (writeAcked r s) := by
  unfold Machine.writeAcked
  split
  · next tally rest _ =>
    obtain ⟨-, he⟩ | ⟨-, -, he⟩ | ⟨-, -, he⟩ := State.bandMoves_cases s Use.isBandWrite rest (Machine.bandDone tally)
      <;> rw [he]
    · exact h.of_eq (State.issueMore_work s) (State.issueMore_intake s) (State.issueMore_writer s)
        (working_of_win (State.issueMore_win s))
    · exact h
    · exact h.bandDone tally
  · exact h

theorem DocketsOk.bandFailed {s : State} (h : DocketsOk s) : DocketsOk (bandFailed s) := by
  unfold Machine.bandFailed
  split
  · have latched : DocketsOk { s with sig := s.sig.latch .memory } := h.of_eq rfl rfl rfl id
    exact latched.of_same (sameDockets_stopBand _ _)
  · exact h

theorem DocketsOk.drainEnd {s : State} (h : DocketsOk s) : DocketsOk (drainEnd s) := by
  unfold Machine.drainEnd
  split
  · split
    · exact h
    · exact h.of_same (sameDockets_toOutcome _ _)
  · exact h

/-! ### The temperature sample -/

theorem DocketsOk.breakOffHot {s : State} (h : DocketsOk s) : DocketsOk (breakOffHot s) := by
  unfold Machine.breakOffHot
  split
  · exact h.of_same (sameDockets_stopBand _ _)
  · exact h

theorem DocketsOk.followShutdown {s : State} (h : DocketsOk s) (before after : Bool) :
    DocketsOk (followShutdown before after s) := by
  unfold Machine.followShutdown
  split
  · apply DocketsOk.breakOffHot
    exact h.of_eq rfl rfl rfl nofun
  split
  · apply DocketsOk.pick
    exact h.of_eq rfl rfl rfl nofun
  · exact h

theorem warmInBand_seq (e : Engine) (work : List Entry) : (warmInBand e work).map Entry.seq = work.map Entry.seq := by
  unfold warmInBand
  split
  · exact warmRunning_seq _ _
  · rfl

theorem DocketsOk.judgeWarning {s : State} (h : DocketsOk s) : DocketsOk (judgeWarning s) := by
  refine h.of_same (.of_eq ?_ rfl rfl id)
  unfold Machine.judgeWarning
  dsimp only
  split
  · exact warmInBand_seq _ _
  · rfl

theorem DocketsOk.thermalSample {s : State} (h : DocketsOk s) (t : Int) : DocketsOk (thermalSample t s) := by
  apply DocketsOk.followShutdown
  have warned : DocketsOk (Machine.judgeWarning { s with thermal := { s.thermal with code := temperatureCode t } }) :=
    DocketsOk.judgeWarning (h.of_eq rfl rfl rfl id)
  exact warned.of_eq rfl rfl rfl id

/-! ### Cancel, the setup block, REOPEN, HALTED -/

theorem cancelAnswers_docket (work : List Entry) : (cancelAnswers work).flatMap WaitingAnswer.docket = [] := by
  refine List.flatMap_eq_nil_iff.mpr fun a ha => ?_
  obtain ⟨e, -, rfl⟩ := List.mem_map.mp ha
  rfl

theorem DocketsOk.cancelRequest {s : State} (h : DocketsOk s) : DocketsOk (cancelRequest s) := by
  unfold Machine.cancelRequest
  split
  · split
    · exact h
    · refine DocketsOk.of_same ?_ (sameDockets_cancelCheck _)
      exact h.of_same (.of_writer rfl rfl rfl (cancelAnswers_docket s.work) (fun hw => by rw [hw]; rfl) id)
  · exact h.of_eq rfl rfl rfl id

theorem DocketsOk.acceptPost {s : State} (h : DocketsOk s) (new : Count) : DocketsOk (acceptPost new s) := by
  refine DocketsOk.of_same ?_ (sameDockets_cancelCheck _)
  exact h.of_eq rfl rfl rfl id

theorem DocketsOk.setupReturned {s : State} (h : DocketsOk s) (bytes : List Byte) :
    DocketsOk (setupReturned bytes s) := by
  unfold Machine.setupReturned
  split
  · next hsetup =>
    split
    · obtain ⟨-, hwork, hwriter⟩ := h.2.2.2.2.2 (.inl hsetup)
      exact docketsOk_empty rfl (by rw [enterRun_work, hwork]) (by rw [enterRun_writer, hwriter])
    · exact h.of_eq rfl rfl rfl id
  · exact h

/-- R166: what makes the part quiescent leaves no docket at the intake unit. -/
theorem DocketsOk.reopen {s : State} (h : DocketsOk s) (hquiescent : s.quiescent = true) (win : Window) :
    DocketsOk { s with win := win } := by
  simp only [State.quiescent, Bool.and_eq_true, beq_iff_eq, List.isEmpty_iff, Option.isNone_iff_eq_none] at hquiescent
  obtain ⟨⟨⟨⟨⟨⟨⟨-, hretired⟩, hwork⟩, -⟩, hhand⟩, hwaiting⟩, -⟩, -⟩ := hquiescent
  obtain ⟨-, hopen, -, hwriting, -⟩ := h
  have hphase : s.intake.phase.docket = [] := by
    refine List.eq_nil_iff_forall_not_mem.mpr fun seq hseq => ?_
    obtain ⟨hbelow, -⟩ := hopen seq (List.mem_append_right _ (List.mem_append_left _ (List.mem_append_left _ hseq)))
    rw [hretired] at hbelow
    simp [ahead] at hbelow
  have hnot : s.intake.phase ≠ .writing := by
    intro hp
    simp [OutcomeWriter.ofIntake, hhand, hwaiting, hp] at hwriting
  have hidle : s.intake.phase = .idle := by
    cases hp : s.intake.phase with
    | idle => rfl
    | writing => exact absurd hp hnot
    | _ => rw [hp] at hphase; cases hphase
  exact docketsOk_empty hidle hwork (by cases hw : s.writer; simp_all)

theorem DocketsOk.exchangeFault {s : State} (h : DocketsOk s) : DocketsOk (exchangeFault s) := by
  unfold Machine.exchangeFault
  split
  · exact docketsOk_empty rfl rfl rfl
  · exact h

theorem DocketsOk.busError {s : State} (h : DocketsOk s) (r : Request) : DocketsOk (busError r s) := by
  unfold Machine.busError
  split
  case h_1 => exact h.of_eq rfl rfl rfl id
  case h_3 => exact h.docketStep (imageFault_step s)
  case h_4 | h_5 => exact h.bandFailed
  all_goals exact h.exchangeFault

theorem sameDockets_moveWaiters (s : State) {f : Stage → Stage} (hf : ∀ st, f st = .writing ↔ st = .writing)
    (g : CancelStage → CancelStage) : SameDockets s (s.moveWaiters f g) where
  seqs := rfl
  phase := rfl
  taken := rfl
  retired := rfl
  map := rfl
  hand := ⟨fun x => { x with stage := f x.stage }, ⟨fun _ => rfl, fun _ => rfl, fun x => hf x.stage⟩, rfl⟩
  waiting := ⟨[], (List.append_nil _).symm, rfl, fun _ => rfl⟩
  working := id

/-! ### Every effect -/

theorem DocketsOk.effect {s : State} (hcounts : CountsOk s) (h : DocketsOk s) (c : Instr) (r : Request) :
    DocketsOk (effect c r s) := by
  cases c with
  | powerOnReset | softReset => exact docketsOk_empty rfl rfl rfl
  | tick | eraYoungClear | sync | ack | clearFaults | errorClear | irqEnableUpdate | otherRegisterWrite =>
    exact h.of_eq rfl rfl rfl id
  | lensMessage line =>
    exact h.of_eq (hearLine_work line s) (hearLine_intake line s) (hearLine_writer line s)
      (working_of_win (hearLine_win line s))
  | quietTimerExpiry =>
    rw [effect_quietTimerExpiry]
    split <;> exact h.of_eq rfl rfl rfl id
  | temperatureSample t => exact h.thermalSample _
  | cancel => exact h.cancelRequest
  | modeRun =>
    rw [effect_modeRun]
    split <;> exact h.of_eq rfl rfl rfl id
  | modeReopen =>
    rw [effect_modeReopen]
    split
    · next hreopen => exact h.reopen hreopen.2 _
    · exact h.of_eq rfl rfl rfl id
  | postWrite value =>
    rw [effect_postWrite]
    split
    · split
      · exact h.acceptPost _
      · exact h.of_eq rfl rfl rfl id
    · exact h.of_eq rfl rfl rfl id
  | xbaseWrite value =>
    rw [effect_xbaseWrite]
    split
    · split <;> exact h.of_eq rfl rfl rfl id
    · exact h.of_eq rfl rfl rfl id
  | setupReadReturn tag bytes => exact h.setupReturned bytes
  | setupReadFault => exact h.of_eq rfl rfl rfl id
  | takeDocket =>
    rw [effect_takeDocket]
    split
    · next hcan => exact DocketsOk.takeDocket hcounts h _ hcan
    · exact h
  | markDocket =>
    rw [effect_markDocket]
    split
    · next hcan => exact DocketsOk.markDocket hcounts h hcan
    · exact h
  | frameDocket | installDocket | dropDocket | trimNudge | trimSet | badTrimMode | optionsDocket | badKindDocket
  | installValidation | imageReadFault | resolveFrame => exact h.docketStep (effect_docketStep rfl r s)
  | pick => exact h.pick
  | bandReadReturn tag bytes =>
    exact h.of_eq (rowReturned_work bytes r s) (rowReturned_intake bytes r s) (rowReturned_writer bytes r s)
      (working_of_win (rowReturned_win bytes r s))
  | bandWriteAck => exact h.writeAcked r
  | bandBusError => exact h.bandFailed
  | memoryRequestTimeout => exact h.busError r
  | drainEnd => exact h.drainEnd
  | outcomeTakeUp =>
    rw [effect_outcomeTakeUp]
    split
    · exact h.takeUpAnswer
    · exact h
  | outcomeWriteAck => exact DocketsOk.answerWriteAcked hcounts h r
  | reportWriteTakeUp =>
    rw [effect_reportWriteTakeUp]
    split
    · refine DocketsOk.of_same ?_ (sameDockets_moveWaiters _ (f := Stage.onTakeUp) (by rintro (_ | _) <;> decide) _)
      exact h.of_eq rfl rfl rfl id
    · exact h
  | reportWriteAck =>
    rw [effect_reportWriteAck]
    split
    · refine DocketsOk.of_same ?_ (sameDockets_moveWaiters _ (f := Stage.onReportAck) (by rintro (_ | _) <;> decide) _)
      exact h.of_eq rfl rfl rfl id
    · exact h
  | signallingUpdate => exact withInHand_keeps h fun x hx hstage => h.signalAnswer hx hstage
  | exchangeFault => exact h.exchangeFault
  | cancelComplete =>
    rw [effect_cancelComplete]
    split <;> exact h.of_eq rfl rfl rfl id

/-- Settles O57: the list, its entries and the bands done by `WorkMoves`, of which every effect is one; the dockets not
yet answered by what moves them: taking and marking (`DocketsOk.advance`), the handling at the intake unit
(`DocketsOk.docketMoves`), and an answer's completion (`DocketsOk.answered`). -/
theorem workListKept : Obligations.WorkListKept :=
  ⟨fun _ _ hwork hentries h => workOk_step hwork hentries h, fun _ _ hwork hbands h => bandsOk_step hwork hbands h,
    fun _ _ hcounts hdockets h =>
      (step_keeps (P := fun s => CountsOk s ∧ DocketsOk s) (fun _ _ hu => hu) (fun _ _ hu => hu)
        (fun c r _ hu => ⟨hu.1.effect c r, hu.2.effect hu.1 c r⟩) ⟨hcounts, hdockets⟩ h).2⟩

end Sys2Proof.Machine

/-! PROOFS. The checks of a profile image (R10 to R14): which one fails first, said once for each loop of the checks,
and what a profile within its limits is in the terms of those checks. -/

namespace Sys2Proof.Machine

/-! ### The station records of an image (R11) -/

@[simp] theorem stationAt_knots_length (b : List Byte) (off : Nat) :
    (stationAt b off).knots.length = fieldAt b (off + 2) 2 := by simp [stationAt]

theorem stationOffset_succ (b : List Byte) (j : Nat) :
    stationOffset b (j + 1) = stationOffset b j + 4 + 8 * fieldAt b (stationOffset b j + 2) 2 := rfl

@[simp] theorem length_stationsFrom (b : List Byte) (n off : Nat) : (stationsFrom b n off).length = n := by
  induction n generalizing off with
  | zero => rfl
  | succ n ih => simp [stationsFrom, ih]

theorem stationsFrom_getElem? (b : List Byte) {n i : Nat} (hi : i < n) (j : Nat) :
    (stationsFrom b n (stationOffset b j))[i]? = some (stationAt b (stationOffset b (j + i))) := by
  induction n generalizing i j with
  | zero => exact absurd hi (Nat.not_lt_zero i)
  | succ n ih =>
    rw [stationsFrom, ← stationOffset_succ]
    cases i with
    | zero => rfl
    | succ i => rw [List.getElem?_cons_succ, ih (Nat.lt_of_succ_lt_succ hi), Nat.succ_add_eq_add_succ]

theorem imageProfile_station (b : List Byte) {j : Nat} (hj : j < imageStations b) :
    (imageProfile b).stations[j]? = some (stationAt b (stationOffset b j)) := by
  have h := stationsFrom_getElem? b hj 0
  rwa [Nat.zero_add] at h

/-- R11: station `j`'s record lies in the image. -/
def RecordFits (b : List Byte) (j : Nat) : Prop :=
  stationOffset b j + 4 ≤ b.length ∧ stationOffset b (j + 1) ≤ b.length

theorem walkImage_succ (b : List Byte) (n j : Nat) : (RecordFits b j →
      walkImage b (n + 1) j (stationOffset b j) = walkImage b n (j + 1) (stationOffset b (j + 1)))
    ∧ (¬ RecordFits b j → walkImage b (n + 1) j (stationOffset b j)
      = some { reason := .imageLength, station := some j, knot := none }) :=
  ⟨fun h => if_pos h, fun h => if_neg h⟩

/-- Step 7 passes every record that fits and ends at the image's length. -/
theorem walkImage_of_fits {b : List Byte} {n j : Nat} (h : ∀ i, j ≤ i → i < j + n → RecordFits b i) :
    walkImage b n j (stationOffset b j)
      = require (decide (stationOffset b (j + n) = b.length)) (plainViolation .imageLength) := by
  induction n generalizing j with
  | zero => rfl
  | succ n ih =>
    rw [(walkImage_succ b n j).1 (h j le_rfl (by omega)), ih fun i hi hlt => h i (by omega) (by omega)]
    congr 4
    omega

/-- Step 7 stops at the first record that does not fit. -/
theorem walkImage_first {b : List Byte} {n j i : Nat} (hj : j ≤ i) (hi : i < j + n)
    (hbefore : ∀ h, j ≤ h → h < i → RecordFits b h) (hfails : ¬ RecordFits b i) :
    walkImage b n j (stationOffset b j) = some { reason := .imageLength, station := some i, knot := none } := by
  induction n generalizing j with
  | zero => omega
  | succ n ih =>
    rcases Nat.eq_or_lt_of_le hj with rfl | hlt
    · exact (walkImage_succ b n j).2 hfails
    · rw [(walkImage_succ b n j).1 (hbefore j le_rfl hlt)]
      exact ih hlt (by omega) fun h hh => hbefore h (by omega)

/-! ### The knots of a station (R14) -/

/-- R14: a knot is in order behind a knot of this u, or as the first one. -/
def KnotFollows (prev : Option Nat) (k : Knot) : Prop :=
  (match prev with
    | none => k.u = 0
    | some u => u < k.u) ∧ k.u ≤ 8192

theorem orderViolation_cons (j i : Nat) (prev : Option Nat) (k : Knot) (rest : List Knot) :
    (KnotFollows prev k → orderViolation j i prev (k :: rest) = orderViolation j (i + 1) (some k.u) rest)
    ∧ (¬ KnotFollows prev k →
      orderViolation j i prev (k :: rest) = some { reason := .knotOrder, station := some j, knot := some i }) := by
  have passes : ∃ c : Bool, (c = true ↔ KnotFollows prev k) ∧ orderViolation j i prev (k :: rest)
      = if c then orderViolation j (i + 1) (some k.u) rest
        else some { reason := .knotOrder, station := some j, knot := some i } :=
    ⟨_, by unfold KnotFollows; cases prev <;> simp <;> exact fun _ => Iff.rfl, rfl⟩
  obtain ⟨c, hc, heq⟩ := passes
  rw [heq, ← hc]
  exact ⟨fun h => if_pos h, fun h => if_neg h⟩

/-- The u of the last knot before the rest of a list. -/
def lastU (pre : List Knot) : Option Nat := pre.getLast?.map Knot.u

@[simp] theorem lastU_concat (pre : List Knot) (k : Knot) : lastU (pre ++ [k]) = some k.u := by simp [lastU]

theorem knotOrdered_iff (pre : List Knot) (k : Knot) (rest : List Knot) :
    KnotOrdered (pre ++ k :: rest) pre.length ↔ KnotFollows (lastU pre) k := by
  have hk : (pre ++ k :: rest)[pre.length]? = some k := by simp
  unfold KnotOrdered KnotFollows lastU
  rcases List.eq_nil_or_concat pre with rfl | ⟨init, y, rfl⟩
  · simp [and_comm]
  · have hy : (init.concat y ++ k :: rest)[init.length]? = some y := by simp
    constructor
    · rintro ⟨x, hx, hmax, -, hbefore⟩
      cases hk.symm.trans hx
      exact ⟨by simpa using hbefore init.length y (by simp) hy, hmax⟩
    · rintro ⟨hlt, hmax⟩
      refine ⟨k, hk, hmax, by simp, fun h z hh hz => ?_⟩
      have hindex : h = init.length := by simpa using hh
      subst hindex
      cases hy.symm.trans hz
      simpa using hlt

/-- The order check passes knots that are all in order. -/
theorem orderViolation_none {j : Nat} {pre l : List Knot}
    (h : ∀ i, pre.length ≤ i → i < (pre ++ l).length → KnotOrdered (pre ++ l) i) :
    orderViolation j pre.length (lastU pre) l = none := by
  induction l generalizing pre with
  | nil => rfl
  | cons k rest ih =>
    have hk := (knotOrdered_iff pre k rest).mp (h pre.length le_rfl (by simp))
    rw [(orderViolation_cons j pre.length _ k rest).1 hk]
    have hnext := ih (pre := pre ++ [k]) fun i hi hlt => by
      rw [List.append_assoc] at hlt ⊢
      exact h i (by simp at hi; omega) hlt
    rwa [lastU_concat, List.length_append] at hnext

/-- The order check stops at the first knot out of order. -/
theorem orderViolation_first {j i : Nat} {pre l : List Knot} (hlow : pre.length ≤ i) (hi : i < (pre ++ l).length)
    (hbefore : ∀ h, pre.length ≤ h → h < i → KnotOrdered (pre ++ l) h) (hfails : ¬ KnotOrdered (pre ++ l) i) :
    orderViolation j pre.length (lastU pre) l = some { reason := .knotOrder, station := some j, knot := some i } := by
  induction l generalizing pre with
  | nil => simp at hi; omega
  | cons k rest ih =>
    rcases Nat.eq_or_lt_of_le hlow with rfl | hlt
    · exact (orderViolation_cons j pre.length _ k rest).2 (mt (knotOrdered_iff pre k rest).mpr hfails)
    · have hk := (knotOrdered_iff pre k rest).mp (hbefore pre.length le_rfl hlt)
      rw [(orderViolation_cons j pre.length _ k rest).1 hk]
      have hassoc : pre ++ k :: rest = (pre ++ [k]) ++ rest := by simp
      rw [hassoc] at hi hbefore hfails
      have hnext := ih (pre := pre ++ [k]) (by simpa using hlt) hi
        (fun h hh => hbefore h (by simp at hh; omega)) hfails
      rwa [lastU_concat, List.length_append] at hnext

theorem Knot.inRange_iff (k : Knot) : k.inRange = true ↔ KnotInRange k := by
  unfold Knot.inRange KnotInRange
  simp only [Bool.and_eq_true, within_iff, Config.deltaMin, Config.deltaMax]
  constructor
  · rintro ⟨⟨hg, hr⟩, hb⟩ c
    cases c
    · exact hr
    · exact hg
    · exact hb
  · intro h
    exact ⟨⟨h .green, h .red⟩, h .blue⟩

theorem valueViolation_none {j i : Nat} {l : List Knot} (h : ∀ k ∈ l, KnotInRange k) : valueViolation j i l = none := by
  induction l generalizing i with
  | nil => rfl
  | cons k rest ih =>
    obtain ⟨hk, hrest⟩ := List.forall_mem_cons.mp h
    rw [valueViolation, if_pos ((Knot.inRange_iff k).mpr hk), ih hrest]

/-- The value check stops at the first knot out of range. -/
theorem valueViolation_first {j i m : Nat} {l : List Knot} {k : Knot} (hm : l[m]? = some k)
    (hbefore : ∀ h < m, ∀ k', l[h]? = some k' → KnotInRange k') (hfails : ¬ KnotInRange k) :
    valueViolation j i l = some { reason := .valueRange, station := some j, knot := some (i + m) } := by
  induction l generalizing i m with
  | nil => cases hm
  | cons x rest ih =>
    cases m with
    | zero =>
      cases hm
      exact if_neg (mt (Knot.inRange_iff k).mp hfails)
    | succ m =>
      rw [valueViolation, if_pos ((Knot.inRange_iff x).mpr (hbefore 0 (Nat.zero_lt_succ m) x rfl)),
        ih hm fun h hh => hbefore (h + 1) (Nat.succ_lt_succ hh)]
      congr 3
      omega

/-! ### The stations (R13) -/

/-- R13: a station's focal length is at least 1 and above the one before. -/
def FocalFollows (prev : Option Nat) (x : Station) : Prop := 1 ≤ x.focal ∧ ∀ f, prev = some f → f < x.focal

/-- What step 9 asks of station `j`. -/
def StationOk (stations : List Station) (j : Nat) : Prop :=
  FocalOk stations j ∧ ∃ x, stations[j]? = some x ∧ 2 ≤ x.knots.length ∧ x.knots.length ≤ 16
    ∧ (∀ i < x.knots.length, KnotOrdered x.knots i) ∧ ∀ k ∈ x.knots, KnotInRange k

/-- The focal length of the last station before the rest of a list. -/
def lastFocal (pre : List Station) : Option Nat := pre.getLast?.map Station.focal

@[simp] theorem lastFocal_concat (pre : List Station) (x : Station) : lastFocal (pre ++ [x]) = some x.focal := by
  simp [lastFocal]

theorem focalOk_iff (pre : List Station) (x : Station) (rest : List Station) :
    FocalOk (pre ++ x :: rest) pre.length ↔ FocalFollows (lastFocal pre) x := by
  have hx : (pre ++ x :: rest)[pre.length]? = some x := by simp
  unfold FocalOk FocalFollows lastFocal
  rcases List.eq_nil_or_concat pre with rfl | ⟨init, y, rfl⟩
  · simp
  · have hy : (init.concat y ++ x :: rest)[init.length]? = some y := by simp
    constructor
    · rintro ⟨z, hz, hone, hbefore⟩
      cases hx.symm.trans hz
      exact ⟨hone, by simpa using hbefore init.length y (by simp) hy⟩
    · rintro ⟨hone, hlt⟩
      refine ⟨x, hx, hone, fun i z hi hz => ?_⟩
      have hindex : i = init.length := by simpa using hi
      subst hindex
      cases hy.symm.trans hz
      simpa using hlt

/-- Step 9's checks of one station, in their order. -/
theorem stationViolation_eq (j : Nat) (prev : Option Nat) (x : Station) :
    (¬ FocalFollows prev x →
      stationViolation j prev x = some { reason := .focalOrder, station := some j, knot := none })
    ∧ (FocalFollows prev x → (x.knots.length < 2 ∨ 16 < x.knots.length) →
      stationViolation j prev x = some { reason := .badKnotCount, station := some j, knot := none })
    ∧ (FocalFollows prev x → 2 ≤ x.knots.length → x.knots.length ≤ 16 →
      stationViolation j prev x = (orderViolation j 0 none x.knots).or (valueViolation j 0 x.knots)) := by
  have checks : ∃ c : Bool, (c = true ↔ FocalFollows prev x) ∧ stationViolation j prev x
      = (require c { reason := .focalOrder, station := some j, knot := none }).or
          ((require (decide (2 ≤ x.knots.length ∧ x.knots.length ≤ 16))
            { reason := .badKnotCount, station := some j, knot := none }).or
          ((orderViolation j 0 none x.knots).or (valueViolation j 0 x.knots))) :=
    ⟨_, by unfold FocalFollows; cases prev <;> simp, rfl⟩
  obtain ⟨c, hfocal, heq⟩ := checks
  have hcount : decide (2 ≤ x.knots.length ∧ x.knots.length ≤ 16) = true
      ↔ 2 ≤ x.knots.length ∧ x.knots.length ≤ 16 := decide_eq_true_iff
  rw [heq]
  unfold require
  refine ⟨fun h => ?_, fun h hbad => ?_, fun h hlow hhigh => ?_⟩
  · rw [if_neg (mt hfocal.mp h)]; rfl
  · rw [if_pos (hfocal.mpr h), if_neg (mt hcount.mp (by omega))]; rfl
  · rw [if_pos (hfocal.mpr h), if_pos (hcount.mpr ⟨hlow, hhigh⟩)]; rfl

theorem stationOk_iff (pre : List Station) (x : Station) (rest : List Station) :
    StationOk (pre ++ x :: rest) pre.length ↔ FocalFollows (lastFocal pre) x ∧ 2 ≤ x.knots.length
      ∧ x.knots.length ≤ 16 ∧ (∀ i < x.knots.length, KnotOrdered x.knots i) ∧ ∀ k ∈ x.knots, KnotInRange k := by
  have hx : (pre ++ x :: rest)[pre.length]? = some x := by simp
  unfold StationOk
  rw [focalOk_iff, hx]
  simp

/-- Step 9 finds nothing in a station within its limits. -/
theorem stationViolation_none {pre : List Station} {x : Station} {rest : List Station}
    (h : StationOk (pre ++ x :: rest) pre.length) (j : Nat) : stationViolation j (lastFocal pre) x = none := by
  obtain ⟨hfocal, hlow, hhigh, hordered, hrange⟩ := (stationOk_iff pre x rest).mp h
  rw [(stationViolation_eq j _ x).2.2 hfocal hlow hhigh, valueViolation_none hrange, Option.or_none]
  exact orderViolation_none (pre := []) fun i _ hi => hordered i hi

theorem stationsViolation_none {pre l : List Station}
    (h : ∀ i, pre.length ≤ i → i < (pre ++ l).length → StationOk (pre ++ l) i) :
    stationsViolation pre.length (lastFocal pre) l = none := by
  induction l generalizing pre with
  | nil => rfl
  | cons x rest ih =>
    rw [stationsViolation, stationViolation_none (h pre.length le_rfl (by simp)), Option.none_or]
    have hnext := ih (pre := pre ++ [x]) fun i hi hlt => by
      rw [List.append_assoc] at hlt ⊢
      exact h i (by simp at hi; omega) hlt
    rwa [lastFocal_concat, List.length_append] at hnext

/-- Step 9 comes to station `j` where the ones before it are within their limits. -/
theorem stationsViolation_reaches {pre mid : List Station} {x : Station} {rest : List Station}
    (h : ∀ i, pre.length ≤ i → i < (pre ++ mid).length → StationOk (pre ++ mid ++ x :: rest) i) :
    stationsViolation pre.length (lastFocal pre) (mid ++ x :: rest)
      = (stationViolation (pre ++ mid).length (lastFocal (pre ++ mid)) x).or
          (stationsViolation ((pre ++ mid).length + 1) (some x.focal) rest) := by
  induction mid generalizing pre with
  | nil => rw [List.append_nil]; rfl
  | cons y mid ih =>
    have hassoc : pre ++ y :: mid ++ x :: rest = pre ++ y :: (mid ++ x :: rest) := by simp
    have hy := h pre.length le_rfl (by simp)
    rw [hassoc] at hy
    rw [List.cons_append, stationsViolation, stationViolation_none hy, Option.none_or]
    have hsplit : pre ++ [y] ++ mid = pre ++ y :: mid := by simp
    have hnext := ih (pre := pre ++ [y]) fun i hi hlt => by
      rw [hsplit] at hlt ⊢
      exact h i (by simp at hi; omega) hlt
    rwa [lastFocal_concat, List.length_append, hsplit] at hnext

/-! ### A profile within its limits (R2), in the terms of the checks -/

theorem knotsOrdered_iff (ks : List Knot) (hne : ks ≠ []) : (∀ i < ks.length, KnotOrdered ks i) ↔
    ks.head?.map Knot.u = some 0 ∧ ks.IsChain (fun a b => a.u < b.u) ∧ ∀ k ∈ ks, k.u ≤ 8192 := by
  obtain ⟨first, rest, rfl⟩ := List.exists_cons_of_ne_nil hne
  rw [List.isChain_iff_getElem]
  constructor
  · intro h
    refine ⟨?_, fun i hi => ?_, fun k hk => ?_⟩
    · obtain ⟨x, hx, -, hzero, -⟩ := h 0 (Nat.zero_lt_succ _)
      cases hx
      exact congrArg some (hzero rfl)
    · obtain ⟨x, hx, -, -, hbefore⟩ := h (i + 1) hi
      rw [List.getElem?_eq_getElem hi, Option.some.injEq] at hx
      rw [hx]
      exact hbefore i _ rfl (List.getElem?_eq_getElem (Nat.lt_of_succ_lt hi))
    · obtain ⟨i, hi, rfl⟩ := List.getElem_of_mem hk
      obtain ⟨x, hx, hmax, -⟩ := h i hi
      rw [List.getElem?_eq_getElem hi, Option.some.injEq] at hx
      rwa [hx]
  · rintro ⟨hhead, hchain, hmax⟩ i hi
    refine ⟨_, List.getElem?_eq_getElem hi, hmax _ (List.getElem_mem hi), fun hzero => ?_, fun h y hh hy => ?_⟩
    · subst hzero
      simpa using hhead
    · subst hh
      rw [List.getElem?_eq_getElem (Nat.lt_of_succ_lt hi), Option.some.injEq] at hy
      rw [← hy]
      exact hchain h hi

theorem knotsOk_iff (ks : List Knot) : KnotsOk ks ↔ 2 ≤ ks.length ∧ ks.length ≤ 16
    ∧ (∀ i < ks.length, KnotOrdered ks i) ∧ ∀ k ∈ ks, KnotInRange k := by
  unfold KnotsOk
  constructor
  · rintro ⟨hlow, hhigh, hhead, hchain, hall⟩
    have hne : ks ≠ [] := List.ne_nil_of_length_pos (by omega)
    exact ⟨hlow, hhigh, (knotsOrdered_iff ks hne).mpr ⟨hhead, hchain, fun k hk => (hall k hk).1⟩,
      fun k hk => (hall k hk).2⟩
  · rintro ⟨hlow, hhigh, hordered, hrange⟩
    have hne : ks ≠ [] := List.ne_nil_of_length_pos (by omega)
    obtain ⟨hhead, hchain, hmax⟩ := (knotsOrdered_iff ks hne).mp hordered
    exact ⟨hlow, hhigh, hhead, hchain, fun k hk => ⟨hmax k hk, hrange k hk⟩⟩

theorem stationsOk_iff (stations : List Station) : (∀ j < stations.length, StationOk stations j) ↔
    stations.IsChain (fun a b => a.focal < b.focal) ∧ ∀ x ∈ stations, 1 ≤ x.focal ∧ KnotsOk x.knots := by
  rw [List.isChain_iff_getElem]
  constructor
  · intro h
    refine ⟨fun i hi => ?_, fun x hx => ?_⟩
    · obtain ⟨⟨x, hx, -, hbefore⟩, -⟩ := h (i + 1) hi
      rw [List.getElem?_eq_getElem hi, Option.some.injEq] at hx
      rw [hx]
      exact hbefore i _ rfl (List.getElem?_eq_getElem (Nat.lt_of_succ_lt hi))
    · obtain ⟨i, hi, rfl⟩ := List.getElem_of_mem hx
      obtain ⟨⟨y, hy, hone, -⟩, z, hz, hknots⟩ := h i hi
      rw [List.getElem?_eq_getElem hi, Option.some.injEq] at hy hz
      subst hy
      rw [hz]
      exact ⟨hz ▸ hone, (knotsOk_iff z.knots).mpr hknots⟩
  · rintro ⟨hchain, hall⟩ j hj
    obtain ⟨hone, hknots⟩ := hall _ (List.getElem_mem hj)
    refine ⟨⟨_, List.getElem?_eq_getElem hj, hone, fun i y hi hy => ?_⟩, _, List.getElem?_eq_getElem hj,
      (knotsOk_iff _).mp hknots⟩
    subst hi
    rw [List.getElem?_eq_getElem (Nat.lt_of_succ_lt hj), Option.some.injEq] at hy
    rw [← hy]
    exact hchain i hj

theorem LensId.valid_iff (id : LensId) : id.valid = true ↔ IdentOk id := decide_eq_true_iff

theorem Trims.inRange_iff (t : Trims) : t.inRange = true ↔ TrimsOk t := by
  unfold Trims.inRange TrimsOk
  simp only [Bool.and_eq_true, within_iff, Config.centreLimit, Config.scaleLimit, and_assoc]

end Sys2Proof.Machine

/-! PROOFS. Steps 5 to 9 of an install (R10 to R14) on the bytes of an image: where the first failing check is, what an
image that passes holds (O37), and that the image of a profile within its limits passes (O36). -/

namespace Sys2Proof.Machine

/-! ### The steps in their order -/

theorem require_pos {c : Prop} [Decidable c] (h : c) (v : Violation) : require (decide c) v = none := by
  simp [require, h]

theorem require_neg {c : Prop} [Decidable c] (h : ¬ c) (v : Violation) : require (decide c) v = some v := by
  simp [require, h]

/-- R10: what step 5 asks. -/
def LayoutOk (b : List Byte) : Prop := imageLayout b = 1 ∧ IdentOk (imageProfile b).ident

/-- R10: what step 6 asks. -/
def CountOk (b : List Byte) : Prop := 1 ≤ imageStations b ∧ imageStations b ≤ 8

/-- R11: what step 7 asks. -/
def WalkOk (b : List Byte) : Prop :=
  (∀ j < imageStations b, RecordFits b j) ∧ stationOffset b (imageStations b) = b.length

theorem layout_check (b : List Byte) :
    (decide (imageLayout b = 1) && (imageProfile b).ident.valid) = true ↔ LayoutOk b := by
  rw [Bool.and_eq_true, decide_eq_true_iff, LensId.valid_iff]
  rfl

theorem imageViolation_of_layout {b : List Byte} (h : ¬ LayoutOk b) :
    imageViolation b = some { reason := .badLayout, station := none, knot := none } := by
  unfold imageViolation
  dsimp only
  rw [require, if_neg (mt (layout_check b).mp h)]
  rfl

theorem imageViolation_of_count {b : List Byte} (hlayout : LayoutOk b) (h : ¬ CountOk b) :
    imageViolation b = some { reason := .badStationCount, station := none, knot := none } := by
  unfold imageViolation
  dsimp only
  rw [require, if_pos ((layout_check b).mpr hlayout), Option.none_or,
    require_neg (c := 1 ≤ imageStations b ∧ imageStations b ≤ 8) h]
  rfl

theorem imageViolation_at_walk {b : List Byte} (hlayout : LayoutOk b) (hcount : CountOk b) :
    imageViolation b = (walkImage b (imageStations b) 0 16).or
      ((require (imageProfile b).trims.inRange (plainViolation .trimRange)).or
        (stationsViolation 0 none (imageProfile b).stations)) := by
  unfold imageViolation
  dsimp only
  rw [require, if_pos ((layout_check b).mpr hlayout), Option.none_or,
    require_pos (c := 1 ≤ imageStations b ∧ imageStations b ≤ 8) hcount, Option.none_or]

theorem imageViolation_of_record {b : List Byte} (hlayout : LayoutOk b) (hcount : CountOk b) {j : Nat}
    (hj : j < imageStations b) (hbefore : ∀ i < j, RecordFits b i) (h : ¬ RecordFits b j) :
    imageViolation b = some { reason := .imageLength, station := some j, knot := none } := by
  have hwalk := walkImage_first (n := imageStations b) (Nat.zero_le j) (by omega) (fun i _ hi => hbefore i hi) h
  rw [imageViolation_at_walk hlayout hcount]
  exact congrArg (Option.or · _) hwalk

theorem imageViolation_of_end {b : List Byte} (hlayout : LayoutOk b) (hcount : CountOk b)
    (hfits : ∀ j < imageStations b, RecordFits b j) (h : stationOffset b (imageStations b) ≠ b.length) :
    imageViolation b = some { reason := .imageLength, station := none, knot := none } := by
  have hwalk := walkImage_of_fits (n := imageStations b) (j := 0) fun i _ hi => hfits i (by omega)
  rw [Nat.zero_add, require_neg h] at hwalk
  rw [imageViolation_at_walk hlayout hcount]
  exact congrArg (Option.or · _) hwalk

theorem imageViolation_at_trims {b : List Byte} (hlayout : LayoutOk b) (hcount : CountOk b) (hwalk : WalkOk b) :
    imageViolation b = (require (imageProfile b).trims.inRange (plainViolation .trimRange)).or
        (stationsViolation 0 none (imageProfile b).stations) := by
  obtain ⟨hfits, hend⟩ := hwalk
  have hnone := walkImage_of_fits (n := imageStations b) (j := 0) fun i _ hi => hfits i (by omega)
  rw [Nat.zero_add, require_pos hend] at hnone
  rw [imageViolation_at_walk hlayout hcount]
  exact (congrArg (Option.or · _) hnone).trans (Option.none_or)

theorem imageViolation_of_trims {b : List Byte} (hlayout : LayoutOk b) (hcount : CountOk b) (hwalk : WalkOk b)
    (h : ¬ TrimsOk (imageProfile b).trims) :
    imageViolation b = some { reason := .trimRange, station := none, knot := none } := by
  rw [imageViolation_at_trims hlayout hcount hwalk, require, if_neg (mt (Trims.inRange_iff _).mp h)]
  rfl

theorem imageViolation_at_stations {b : List Byte} (hlayout : LayoutOk b) (hcount : CountOk b) (hwalk : WalkOk b)
    (htrims : TrimsOk (imageProfile b).trims) :
    imageViolation b = stationsViolation 0 none (imageProfile b).stations := by
  rw [imageViolation_at_trims hlayout hcount hwalk, require, if_pos ((Trims.inRange_iff _).mpr htrims),
    Option.none_or]

theorem imageViolation_none {b : List Byte} (hlayout : LayoutOk b) (hcount : CountOk b) (hwalk : WalkOk b)
    (htrims : TrimsOk (imageProfile b).trims) (h : ∀ j < imageStations b, StationOk (imageProfile b).stations j) :
    imageViolation b = none := by
  have hlength : (imageProfile b).stations.length = imageStations b := length_stationsFrom b _ _
  rw [imageViolation_at_stations hlayout hcount hwalk htrims]
  exact stationsViolation_none (pre := []) fun i _ hi => h i (hlength ▸ hi)

/-- The list around its element `j`. -/
theorem exists_split_getElem? {α : Type} {l : List α} {j : Nat} {x : α} (h : l[j]? = some x) :
    ∃ pre rest, l = pre ++ x :: rest ∧ pre.length = j := by
  obtain ⟨hj, rfl⟩ := List.getElem?_eq_some_iff.mp h
  exact ⟨l.take j, l.drop (j + 1), by rw [List.getElem_cons_drop, List.take_append_drop],
    List.length_take_of_le (Nat.le_of_lt hj)⟩

/-- Step 9's checks of station `j`, where the ones before it are within their limits. -/
theorem imageViolation_of_station {b : List Byte} (hlayout : LayoutOk b) (hcount : CountOk b) (hwalk : WalkOk b)
    (htrims : TrimsOk (imageProfile b).trims) {j : Nat} {x : Station} (hx : (imageProfile b).stations[j]? = some x)
    (hbefore : ∀ i < j, StationOk (imageProfile b).stations i) {v : Violation}
    (hv : ∀ prev, (FocalFollows prev x ↔ FocalOk (imageProfile b).stations j) → stationViolation j prev x = some v) :
    imageViolation b = some v := by
  obtain ⟨pre, rest, hsplit, rfl⟩ := exists_split_getElem? hx
  rw [hsplit] at hbefore hv
  rw [imageViolation_at_stations hlayout hcount hwalk htrims, hsplit]
  have hreach := stationsViolation_reaches (pre := []) (mid := pre) (x := x) (rest := rest)
    fun i _ hi => hbefore i hi
  have hfails := hv (lastFocal pre) (focalOk_iff pre x rest).symm
  rw [List.nil_append, hfails, Option.some_or] at hreach
  exact hreach

theorem imageViolation_of_focal {b : List Byte} (hlayout : LayoutOk b) (hcount : CountOk b) (hwalk : WalkOk b)
    (htrims : TrimsOk (imageProfile b).trims) {j : Nat} {x : Station} (hx : (imageProfile b).stations[j]? = some x)
    (hbefore : ∀ i < j, StationOk (imageProfile b).stations i) (h : ¬ FocalOk (imageProfile b).stations j) :
    imageViolation b = some { reason := .focalOrder, station := some j, knot := none } :=
  imageViolation_of_station hlayout hcount hwalk htrims hx hbefore fun prev hprev =>
    (stationViolation_eq j prev x).1 (mt hprev.mp h)

theorem imageViolation_of_knotCount {b : List Byte} (hlayout : LayoutOk b) (hcount : CountOk b) (hwalk : WalkOk b)
    (htrims : TrimsOk (imageProfile b).trims) {j : Nat} {x : Station} (hx : (imageProfile b).stations[j]? = some x)
    (hbefore : ∀ i < j, StationOk (imageProfile b).stations i) (hfocal : FocalOk (imageProfile b).stations j)
    (h : x.knots.length < 2 ∨ 16 < x.knots.length) :
    imageViolation b = some { reason := .badKnotCount, station := some j, knot := none } :=
  imageViolation_of_station hlayout hcount hwalk htrims hx hbefore fun prev hprev =>
    (stationViolation_eq j prev x).2.1 (hprev.mpr hfocal) h

theorem imageViolation_of_order {b : List Byte} (hlayout : LayoutOk b) (hcount : CountOk b) (hwalk : WalkOk b)
    (htrims : TrimsOk (imageProfile b).trims) {j : Nat} {x : Station} (hx : (imageProfile b).stations[j]? = some x)
    (hbefore : ∀ i < j, StationOk (imageProfile b).stations i) (hfocal : FocalOk (imageProfile b).stations j)
    (hlow : 2 ≤ x.knots.length) (hhigh : x.knots.length ≤ 16) {i : Nat} (hi : i < x.knots.length)
    (hfirst : ∀ h < i, KnotOrdered x.knots h) (h : ¬ KnotOrdered x.knots i) :
    imageViolation b = some { reason := .knotOrder, station := some j, knot := some i } := by
  refine imageViolation_of_station hlayout hcount hwalk htrims hx hbefore fun prev hprev => ?_
  have horder := orderViolation_first (j := j) (pre := []) (Nat.zero_le i) hi (fun h _ hh => hfirst h hh) h
  rw [(stationViolation_eq j prev x).2.2 (hprev.mpr hfocal) hlow hhigh]
  exact congrArg (Option.or · _) horder

theorem imageViolation_of_value {b : List Byte} (hlayout : LayoutOk b) (hcount : CountOk b) (hwalk : WalkOk b)
    (htrims : TrimsOk (imageProfile b).trims) {j : Nat} {x : Station} (hx : (imageProfile b).stations[j]? = some x)
    (hbefore : ∀ i < j, StationOk (imageProfile b).stations i) (hfocal : FocalOk (imageProfile b).stations j)
    (hlow : 2 ≤ x.knots.length) (hhigh : x.knots.length ≤ 16) (hordered : ∀ i < x.knots.length, KnotOrdered x.knots i)
    {i : Nat} {k : Knot} (hk : x.knots[i]? = some k)
    (hfirst : ∀ h < i, ∀ k', x.knots[h]? = some k' → KnotInRange k') (h : ¬ KnotInRange k) :
    imageViolation b = some { reason := .valueRange, station := some j, knot := some i } := by
  refine imageViolation_of_station hlayout hcount hwalk htrims hx hbefore fun prev hprev => ?_
  have horder := orderViolation_none (j := j) (pre := []) (l := x.knots) fun i _ hi => hordered i hi
  have hvalue := valueViolation_first (j := j) (i := 0) hk hfirst h
  rw [(stationViolation_eq j prev x).2.2 (hprev.mpr hfocal) hlow hhigh, hvalue, Nat.zero_add]
  exact congrArg (Option.or · _) horder

/-! ### What an accepted image holds (O37) -/

/-- Where something fails below `n`, it fails for a first time. -/
theorem exists_first {P : Nat → Prop} {n : Nat} (h : ¬ ∀ j < n, P j) : ∃ j < n, (∀ i < j, P i) ∧ ¬ P j := by
  classical
  push Not at h
  obtain ⟨hlt, hnot⟩ := Nat.find_spec h
  refine ⟨Nat.find h, hlt, fun i hi => ?_, hnot⟩
  by_contra hfail
  exact Nat.find_min h hi ⟨by omega, hfail⟩

theorem stationOk_of_imageViolation {b : List Byte} (h : imageViolation b = none) (hlayout : LayoutOk b)
    (hcount : CountOk b) (hwalk : WalkOk b) (htrims : TrimsOk (imageProfile b).trims) :
    ∀ j < imageStations b, StationOk (imageProfile b).stations j := by
  by_contra hfails
  obtain ⟨j, hj, hbefore, hnot⟩ := exists_first hfails
  have hx := imageProfile_station b hj
  refine hnot ⟨?_, _, hx, ?_⟩
  · by_contra hfocal
    cases h.symm.trans (imageViolation_of_focal hlayout hcount hwalk htrims hx hbefore hfocal)
  have hfocal : FocalOk (imageProfile b).stations j := by
    by_contra hfocal
    cases h.symm.trans (imageViolation_of_focal hlayout hcount hwalk htrims hx hbefore hfocal)
  have hlength : 2 ≤ (stationAt b (stationOffset b j)).knots.length
      ∧ (stationAt b (stationOffset b j)).knots.length ≤ 16 := by
    by_contra hbad
    cases h.symm.trans (imageViolation_of_knotCount hlayout hcount hwalk htrims hx hbefore hfocal (by omega))
  obtain ⟨hlow, hhigh⟩ := hlength
  have hordered : ∀ i < (stationAt b (stationOffset b j)).knots.length,
      KnotOrdered (stationAt b (stationOffset b j)).knots i := by
    by_contra hbad
    obtain ⟨i, hi, hfirst, hbad⟩ := exists_first hbad
    cases h.symm.trans (imageViolation_of_order hlayout hcount hwalk htrims hx hbefore hfocal hlow hhigh hi hfirst hbad)
  refine ⟨hlow, hhigh, hordered, fun k hk => ?_⟩
  by_contra hrange
  have hbad : ¬ ∀ i < (stationAt b (stationOffset b j)).knots.length,
      ∀ k', (stationAt b (stationOffset b j)).knots[i]? = some k' → KnotInRange k' := by
    obtain ⟨i, hi⟩ := List.mem_iff_getElem?.mp hk
    exact fun hall => hrange (hall i (List.getElem?_eq_some_iff.mp hi).1 k hi)
  obtain ⟨i, hi, hfirst, hbad⟩ := exists_first hbad
  push Not at hbad
  obtain ⟨k', hk', hbad⟩ := hbad
  cases h.symm.trans
    (imageViolation_of_value hlayout hcount hwalk htrims hx hbefore hfocal hlow hhigh hordered hk' hfirst hbad)

theorem imageViolation_eq_none_iff (b : List Byte) : imageViolation b = none ↔ LayoutOk b ∧ CountOk b ∧ WalkOk b
    ∧ TrimsOk (imageProfile b).trims ∧ ∀ j < imageStations b, StationOk (imageProfile b).stations j := by
  constructor
  · intro h
    have hlayout : LayoutOk b := by
      by_contra hbad
      cases h.symm.trans (imageViolation_of_layout hbad)
    have hcount : CountOk b := by
      by_contra hbad
      cases h.symm.trans (imageViolation_of_count hlayout hbad)
    have hfits : ∀ j < imageStations b, RecordFits b j := by
      by_contra hbad
      obtain ⟨j, hj, hbefore, hbad⟩ := exists_first hbad
      cases h.symm.trans (imageViolation_of_record hlayout hcount hj hbefore hbad)
    have hwalk : WalkOk b := by
      refine ⟨hfits, ?_⟩
      by_contra hbad
      cases h.symm.trans (imageViolation_of_end hlayout hcount hfits hbad)
    have htrims : TrimsOk (imageProfile b).trims := by
      by_contra hbad
      cases h.symm.trans (imageViolation_of_trims hlayout hcount hwalk hbad)
    exact ⟨hlayout, hcount, hwalk, htrims, stationOk_of_imageViolation h hlayout hcount hwalk htrims⟩
  · rintro ⟨hlayout, hcount, hwalk, htrims, hstations⟩
    exact imageViolation_none hlayout hcount hwalk htrims hstations

/-- R11: the records end where their knots counts say. -/
theorem stationOffset_eq_sum (b : List Byte) (n j : Nat) : stationOffset b (j + n)
    = stationOffset b j + ((stationsFrom b n (stationOffset b j)).map fun s => 4 + 8 * s.knots.length).sum := by
  induction n generalizing j with
  | zero => rfl
  | succ n ih =>
    have hstep := ih (j + 1)
    rw [Nat.succ_add_eq_add_succ] at hstep
    rw [hstep, stationsFrom, List.map_cons, List.sum_cons, stationAt_knots_length, stationOffset_succ]
    omega

theorem focal_of_imageProfile {b : List Byte} : ∀ x ∈ (imageProfile b).stations, x.focal ≤ 65535 := by
  intro x hx
  obtain ⟨i, hi⟩ := List.mem_iff_getElem?.mp hx
  have hlt : i < imageStations b := by
    have h := (List.getElem?_eq_some_iff.mp hi).1
    rwa [imageProfile, length_stationsFrom] at h
  cases hi.symm.trans (imageProfile_station b hlt)
  exact Nat.le_of_lt_succ (fieldAt_lt b _ 2)

/-- Settles O37. -/
theorem acceptedImagesHoldProfiles : Obligations.AcceptedImagesHoldProfiles := by
  intro b h
  obtain ⟨⟨-, hident⟩, ⟨hlow, hhigh⟩, ⟨-, hend⟩, htrims, hstations⟩ := (imageViolation_eq_none_iff b).mp h
  have hlength : (imageProfile b).stations.length = imageStations b := length_stationsFrom b _ _
  obtain ⟨hchain, hall⟩ := (stationsOk_iff _).mp (hlength ▸ hstations)
  refine ⟨⟨hident, by omega, by omega, hchain, fun x hx => ?_, htrims⟩, ?_⟩
  · obtain ⟨hone, hknots⟩ := hall x hx
    exact ⟨hone, focal_of_imageProfile x hx, hknots⟩
  · have hsum := stationOffset_eq_sum b (imageStations b) 0
    rw [Nat.zero_add, hend] at hsum
    exact hsum

end Sys2Proof.Machine

/-! PROOFS. The image of a profile (R134) read back: field by field, record by record (O36). -/

namespace Sys2Proof.Machine

/-! ### Fields of a laid-out record -/

theorem fieldAt_leBytes_of_lt {n v : Nat} (h : v < 256 ^ n) (b : List Byte) : fieldAt (leBytes n v ++ b) 0 n = v := by
  rw [fieldAt_leBytes, Nat.mod_eq_of_lt h]

/-- A field that stands behind `a`, where the field's offset is `a`'s length. -/
theorem fieldAt_behind {a b : List Byte} {k n : Nat} (h : a.length = k) : fieldAt (a ++ b) k n = fieldAt b 0 n :=
  fieldAt_append a b k 0 n h

theorem fieldAt_skip {a b : List Byte} {off n : Nat} (h : a.length ≤ off) :
    fieldAt (a ++ b) off n = fieldAt b (off - a.length) n := by
  conv_lhs => rw [← Nat.add_sub_of_le h]
  exact fieldAt_append a b _ _ n rfl

theorem signedAt_skip {a b : List Byte} {off : Nat} (h : a.length ≤ off) :
    signedAt (a ++ b) off = signedAt b (off - a.length) := by
  rw [signedAt, fieldAt_skip h, signedAt]

theorem signedAt_behind {a b : List Byte} {k : Nat} (h : a.length = k) : signedAt (a ++ b) k = signedAt b 0 :=
  signedAt_append a b k 0 h

/-! ### Knots and stations -/

/-- A knot whose fields the record can hold. -/
theorem knotAt_knotBytes {k : Knot} (hu : k.u ≤ 8192) (hrange : KnotInRange k) (rest : List Byte) :
    knotAt (knotBytes k ++ rest) 0 = k := by
  have value (c : Channel) (rest : List Byte) : signedAt (signedBytes (k.val.get c) ++ rest) 0 = k.val.get c := by
    obtain ⟨hlow, hhigh⟩ := hrange c
    exact signedAt_signedBytes _ rest (by omega) (by omega)
  have hfield : fieldAt (knotBytes k ++ rest) 0 2 = k.u := by
    simp only [knotBytes, List.append_assoc]
    exact fieldAt_leBytes_of_lt (by omega) _
  have hg : signedAt (knotBytes k ++ rest) 2 = k.val.g := by
    simp only [knotBytes, List.append_assoc]
    exact (signedAt_behind (leBytes_length 2 _)).trans (value .green _)
  have hr : signedAt (knotBytes k ++ rest) 4 = k.val.r := by
    rw [knotBytes, List.append_assoc, List.append_assoc]
    exact (signedAt_behind (by simp)).trans (value .red _)
  have hb : signedAt (knotBytes k ++ rest) 6 = k.val.b := by
    rw [knotBytes, List.append_assoc]
    exact (signedAt_behind (by simp)).trans (value .blue _)
  rw [knotAt, hfield, hg, hr, hb]

@[simp] theorem knotBytes_length (k : Knot) : (knotBytes k).length = 8 := by simp [knotBytes]

theorem knotAt_append {a b : List Byte} {k : Nat} (h : a.length = k) (off : Nat) :
    knotAt (a ++ b) (k + off) = knotAt b off := by
  simp only [knotAt, Nat.add_assoc, signedAt_append a b k _ h, fieldAt_append a b k _ _ h]

theorem knotsAt_knotBytes {ks : List Knot} (h : ∀ k ∈ ks, k.u ≤ 8192 ∧ KnotInRange k) (rest : List Byte) :
    (List.range ks.length).map (fun i => knotAt (ks.flatMap knotBytes ++ rest) (8 * i)) = ks := by
  induction ks with
  | nil => rfl
  | cons k ks ih =>
    obtain ⟨⟨hu, hrange⟩, hrest⟩ := List.forall_mem_cons.mp h
    rw [List.length_cons, List.range_succ_eq_map, List.map_cons, List.map_map, List.flatMap_cons, List.append_assoc,
      Nat.mul_zero, knotAt_knotBytes hu hrange]
    have hnext : ∀ i, knotAt (knotBytes k ++ (ks.flatMap knotBytes ++ rest)) (8 * (i + 1))
        = knotAt (ks.flatMap knotBytes ++ rest) (8 * i) := fun i => by
      rw [Nat.mul_succ, Nat.add_comm, knotAt_append (knotBytes_length k)]
    simp only [Function.comp_def, Nat.succ_eq_add_one, hnext, ih hrest]

theorem flatMap_knotBytes_length (ks : List Knot) : (ks.flatMap knotBytes).length = 8 * ks.length := by
  induction ks with
  | nil => rfl
  | cons k ks ih => rw [List.flatMap_cons, List.length_append, knotBytes_length, ih, List.length_cons, Nat.mul_succ,
      Nat.add_comm]

@[simp] theorem stationBytes_length (s : Station) : (stationBytes s).length = 4 + 8 * s.knots.length := by
  rw [stationBytes, List.length_append, List.length_append, leBytes_length, leBytes_length, flatMap_knotBytes_length]

theorem stationAt_append {a b : List Byte} {k : Nat} (h : a.length = k) (off : Nat) :
    stationAt (a ++ b) (k + off) = stationAt b off := by
  simp only [stationAt, Nat.add_assoc, fieldAt_append a b k _ _ h, knotAt_append h]

theorem stationAt_stationBytes {s : Station} (hfocal : s.focal ≤ 65535) (hknots : KnotsOk s.knots) (rest : List Byte) :
    stationAt (stationBytes s ++ rest) 0 = s ∧ fieldAt (stationBytes s ++ rest) 2 2 = s.knots.length := by
  obtain ⟨-, hhigh, -, -, hall⟩ := hknots
  have hcount : fieldAt (stationBytes s ++ rest) 2 2 = s.knots.length := by
    rw [stationBytes, List.append_assoc, List.append_assoc, fieldAt_behind (leBytes_length 2 _)]
    exact fieldAt_leBytes_of_lt (by omega) _
  have hf : fieldAt (stationBytes s ++ rest) 0 2 = s.focal := by
    rw [stationBytes, List.append_assoc, List.append_assoc]
    exact fieldAt_leBytes_of_lt (by omega) _
  have hks : ∀ i, knotAt (stationBytes s ++ rest) (4 + 8 * i) = knotAt (s.knots.flatMap knotBytes ++ rest) (8 * i) := by
    intro i
    rw [stationBytes, List.append_assoc]
    exact knotAt_append (by simp) _
  refine ⟨?_, hcount⟩
  simp only [stationAt, Nat.zero_add, hcount, hf, hks, knotsAt_knotBytes hall rest]

theorem stationsFrom_append {a b : List Byte} {k : Nat} (h : a.length = k) (n off : Nat) :
    stationsFrom (a ++ b) n (k + off) = stationsFrom b n off := by
  induction n generalizing off with
  | zero => rfl
  | succ n ih =>
    have hnext : k + off + 4 + 8 * fieldAt b (off + 2) 2 = k + (off + 4 + 8 * fieldAt b (off + 2) 2) := by omega
    rw [stationsFrom, stationsFrom, stationAt_append h, Nat.add_assoc k off 2, fieldAt_append a b k _ _ h, hnext, ih]

theorem stationsFrom_stationBytes {stations : List Station}
    (h : ∀ s ∈ stations, s.focal ≤ 65535 ∧ KnotsOk s.knots) :
    stationsFrom (stations.flatMap stationBytes) stations.length 0 = stations := by
  induction stations with
  | nil => rfl
  | cons s stations ih =>
    obtain ⟨⟨hfocal, hknots⟩, hrest⟩ := List.forall_mem_cons.mp h
    obtain ⟨hstation, hcount⟩ := stationAt_stationBytes hfocal hknots (stations.flatMap stationBytes)
    rw [List.flatMap_cons, List.length_cons, stationsFrom, hstation, Nat.zero_add, Nat.zero_add, hcount]
    have hnext := stationsFrom_append (a := stationBytes s) (b := stations.flatMap stationBytes)
      (stationBytes_length s) stations.length 0
    rw [Nat.add_zero] at hnext
    rw [hnext, ih hrest]

/-! ### The whole image -/

/-- The image's header (R134). -/
def imageHeader (p : Profile) : List Byte :=
  leBytes 2 1 ++ leBytes 2 p.ident.model ++ leBytes 1 p.ident.ext ++ leBytes 1 p.stations.length
    ++ signedBytes p.trims.x ++ signedBytes p.trims.y ++ signedBytes p.trims.scale ++ leBytes 4 0

theorem imageBytes_eq (p : Profile) : imageBytes p = imageHeader p ++ p.stations.flatMap stationBytes := rfl

@[simp] theorem imageHeader_length (p : Profile) : (imageHeader p).length = 16 := by simp [imageHeader]

/-- What the part reads in the image of a profile that the fields can hold. -/
theorem imageFields_imageBytes {p : Profile} (hident : IdentOk p.ident) (hcount : p.stations.length ≤ 8)
    (htrims : TrimsOk p.trims) : imageLayout (imageBytes p) = 1 ∧ imageIdent (imageBytes p) = p.ident
      ∧ imageStations (imageBytes p) = p.stations.length ∧ imageTrims (imageBytes p) = p.trims := by
  obtain ⟨-, hmodel, hext⟩ := hident
  obtain ⟨⟨hx, hx'⟩, ⟨hy, hy'⟩, hs, hs'⟩ := htrims
  have hlayout : imageLayout (imageBytes p) = 1 := by
    simp [imageLayout, imageBytes, fieldAt_leBytes]
  have hm : fieldAt (imageBytes p) 2 2 = p.ident.model := by
    simp [imageBytes, fieldAt_skip, fieldAt_leBytes_of_lt (show p.ident.model < 256 ^ 2 by omega)]
  have he : fieldAt (imageBytes p) 4 1 = p.ident.ext := by
    simp [imageBytes, fieldAt_skip, fieldAt_leBytes_of_lt (show p.ident.ext < 256 ^ 1 by omega)]
  have hn : fieldAt (imageBytes p) 5 1 = p.stations.length := by
    simp [imageBytes, fieldAt_skip, fieldAt_leBytes_of_lt (show p.stations.length < 256 ^ 1 by omega)]
  have signed {v : Int} (hlow : -1023 ≤ v) (hhigh : v ≤ 1023) (rest : List Byte) :
      signedAt (signedBytes v ++ rest) 0 = v := signedAt_signedBytes v rest (by omega) (by omega)
  have htx : signedAt (imageBytes p) 6 = p.trims.x := by simp [imageBytes, signedAt_skip, signed hx hx']
  have hty : signedAt (imageBytes p) 8 = p.trims.y := by simp [imageBytes, signedAt_skip, signed hy hy']
  have hts : signedAt (imageBytes p) 10 = p.trims.scale := by
    simp [imageBytes, signedAt_skip, signed (show -1023 ≤ p.trims.scale by omega) (by omega)]
  exact ⟨hlayout, by rw [imageIdent, hm, he], hn, by rw [imageTrims, htx, hty, hts]⟩

theorem imageProfile_imageBytes {p : Profile} (h : ProfileOk p) : imageProfile (imageBytes p) = p := by
  obtain ⟨hident, -, hcount, -, hstations, htrims⟩ := h
  obtain ⟨-, hid, hn, ht⟩ := imageFields_imageBytes hident hcount htrims
  have hs : stationsFrom (imageBytes p) p.stations.length 16 = p.stations := by
    rw [imageBytes_eq]
    exact (stationsFrom_append (imageHeader_length p) _ 0).trans
      (stationsFrom_stationBytes fun s hs => (hstations s hs).2)
  rw [imageProfile, hid, hn, ht, hs]

theorem stationOffset_mono (b : List Byte) {i j : Nat} (h : i ≤ j) : stationOffset b i ≤ stationOffset b j := by
  induction h with
  | refl => exact le_rfl
  | step _ ih => rw [Nat.succ_eq_add_one, stationOffset_succ]; omega

theorem flatMap_stationBytes_length (stations : List Station) :
    (stations.flatMap stationBytes).length = (stations.map fun s => 4 + 8 * s.knots.length).sum := by
  simp [List.length_flatMap]

theorem imageBytes_length (p : Profile) :
    (imageBytes p).length = 16 + (p.stations.map fun s => 4 + 8 * s.knots.length).sum := by
  rw [imageBytes_eq, List.length_append, imageHeader_length, flatMap_stationBytes_length]

theorem walkOk_imageBytes {p : Profile} (h : ProfileOk p) : WalkOk (imageBytes p) := by
  have hprofile := imageProfile_imageBytes h
  have hn : imageStations (imageBytes p) = p.stations.length := by
    rw [← congrArg (fun q => q.stations.length) hprofile]
    exact (length_stationsFrom _ _ _).symm
  have hend : stationOffset (imageBytes p) (imageStations (imageBytes p)) = (imageBytes p).length := by
    have hsum := stationOffset_eq_sum (imageBytes p) (imageStations (imageBytes p)) 0
    rw [Nat.zero_add] at hsum
    rw [hsum, imageBytes_length]
    exact congrArg (fun q : Profile => 16 + (q.stations.map fun s => 4 + 8 * s.knots.length).sum) hprofile
  refine ⟨fun j hj => ?_, hend⟩
  have hnext : stationOffset (imageBytes p) (j + 1) ≤ (imageBytes p).length :=
    hend ▸ stationOffset_mono _ (Nat.succ_le_of_lt hj)
  have hrecord := stationOffset_succ (imageBytes p) j
  exact ⟨by omega, hnext⟩

/-- Between one station of two knots and eight of sixteen. -/
theorem records_length {stations : List Station}
    (h : ∀ s ∈ stations, 2 ≤ s.knots.length ∧ s.knots.length ≤ 16) :
    20 * stations.length ≤ (stations.map fun s => 4 + 8 * s.knots.length).sum
      ∧ (stations.map fun s => 4 + 8 * s.knots.length).sum ≤ 132 * stations.length := by
  induction stations with
  | nil => exact ⟨le_rfl, le_rfl⟩
  | cons s stations ih =>
    obtain ⟨hs, hrest⟩ := List.forall_mem_cons.mp h
    have := ih hrest
    rw [List.map_cons, List.sum_cons, List.length_cons]
    omega

/-- Settles O36. -/
theorem profileImageRoundTrip : Obligations.ProfileImageRoundTrip := by
  intro p h
  have hprofile := imageProfile_imageBytes h
  have hwalk := walkOk_imageBytes h
  have hlength := imageBytes_length p
  obtain ⟨hident, hone, hcount, hchain, hstations, htrims⟩ := h
  obtain ⟨hlayout, -, hn, -⟩ := imageFields_imageBytes hident hcount htrims
  have hrecords := records_length fun s hs => by
    obtain ⟨-, -, hlow, hhigh, -⟩ := hstations s hs
    exact ⟨hlow, hhigh⟩
  refine ⟨(imageViolation_eq_none_iff _).mpr ⟨⟨hlayout, ?_⟩, ⟨?_, ?_⟩, hwalk, ?_, ?_⟩, hprofile, hlength, ?_, ?_⟩
  · rwa [hprofile]
  · rwa [hn]
  · rwa [hn]
  · rwa [hprofile]
  · rw [hprofile, hn]
    exact (stationsOk_iff _).mpr ⟨hchain, fun s hs => ⟨(hstations s hs).1, (hstations s hs).2.2⟩⟩
  · omega
  · omega

end Sys2Proof.Machine

/-! PROOFS. The profile table (R2 to R5): every effect's part on the slots and the install in progress (O54). -/

namespace Sys2Proof.Machine

/-! ### The table's rules under the changes of a slot -/

theorem TableOk.set_vacant {slots : List Slot} (h : TableOk slots) {x : Slot} (hx : ∀ p, x ≠ .ready p) (i : Nat) :
    TableOk (slots.set i x) := by
  obtain ⟨hlength, hprofiles, hunique⟩ := h
  have old : ∀ {j : Nat} {p : Profile}, (slots.set i x)[j]? = some (.ready p) → slots[j]? = some (.ready p) := by
    intro j p hj
    rw [List.getElem?_set] at hj
    split at hj
    · split at hj
      · exact absurd (Option.some.inj hj) (hx p)
      · cases hj
    · exact hj
  refine ⟨by rwa [List.length_set], fun p hp => ?_, fun j k p q hj hk => hunique j k p q (old hj) (old hk)⟩
  obtain ⟨j, hj⟩ := List.mem_iff_getElem?.mp hp
  exact hprofiles p (List.mem_of_getElem? (old hj))

theorem TableOk.set_ready {slots : List Slot} (h : TableOk slots) {p : Profile} (hp : ProfileOk p) {i : Nat}
    (hfree : ∀ (j : Nat) (q : Profile), j ≠ i → slots[j]? = some (.ready q) → q.ident ≠ p.ident) :
    TableOk (slots.set i (.ready p)) := by
  obtain ⟨hlength, hprofiles, hunique⟩ := h
  have origin : ∀ {j : Nat} {q : Profile}, (slots.set i (.ready p))[j]? = some (.ready q) →
      (j = i ∧ q = p) ∨ (j ≠ i ∧ slots[j]? = some (.ready q)) := by
    intro j q hj
    rw [List.getElem?_set] at hj
    split at hj
    · next hij =>
      split at hj
      · cases hj
        exact .inl ⟨hij.symm, rfl⟩
      · cases hj
    · next hij => exact .inr ⟨fun hji => hij hji.symm, hj⟩
  refine ⟨by rwa [List.length_set], fun q hq => ?_, fun j k q q' hj hk hident => ?_⟩
  · obtain ⟨j, hj⟩ := List.mem_iff_getElem?.mp hq
    obtain ⟨-, rfl⟩ | ⟨-, hj⟩ := origin hj
    · exact hp
    · exact hprofiles q (List.mem_of_getElem? hj)
  · obtain ⟨hji, hq⟩ | ⟨hji, hj'⟩ := origin hj <;> obtain ⟨hki, hq'⟩ | ⟨hki, hk'⟩ := origin hk
    · exact hji.trans hki.symm
    · exact absurd (hident.symm.trans (congrArg _ hq)) (hfree k q' hki hk')
    · exact absurd (hident.trans (congrArg _ hq')) (hfree j q hji hj')
    · exact hunique j k q q' hj' hk' hident

theorem dropLoading_ready {slots : List Slot} {i : Nat} {p : Profile} :
    (dropLoading slots)[i]? = some (.ready p) ↔ slots[i]? = some (.ready p) := by
  rw [dropLoading, List.getElem?_map]
  cases slots[i]? with
  | none => simp
  | some x => cases x <;> simp

theorem dropLoading_loading (slots : List Slot) (i : Nat) : (dropLoading slots)[i]? ≠ some Slot.loading := by
  rw [dropLoading, List.getElem?_map]
  cases slots[i]? with
  | none => simp
  | some x => cases x <;> simp

theorem TableOk.dropLoading {slots : List Slot} (h : TableOk slots) : TableOk (dropLoading slots) := by
  obtain ⟨hlength, hprofiles, hunique⟩ := h
  refine ⟨by simp [Machine.dropLoading, hlength], fun p hp => ?_, fun i j p q hi hj =>
    hunique i j p q (dropLoading_ready.mp hi) (dropLoading_ready.mp hj)⟩
  obtain ⟨i, hi⟩ := List.mem_iff_getElem?.mp hp
  exact hprofiles p (List.mem_of_getElem? (dropLoading_ready.mp hi))

theorem tableOk_reset : TableOk State.reset.slots := by
  have vacant : ∀ x ∈ State.reset.slots, x = .empty := fun x hx => List.eq_of_mem_replicate hx
  refine ⟨List.length_replicate, fun p hp => ?_, fun i j p q hi _ _ => ?_⟩
  · cases vacant _ hp
  · cases vacant _ (List.mem_of_getElem? hi)

theorem readySlot_ok {slots : List Slot} {field : Nat} {p : Profile} (h : readySlot slots field = .ok p) :
    slots[field]? = some (.ready p) := by
  unfold readySlot at h
  split at h
  · split at h
    · next hslot =>
      cases h
      unfold slotAt at hslot
      cases hget : slots[field]? with
      | none => rw [List.getD_eq_getElem?_getD, hget] at hslot; cases hslot
      | some x => rw [List.getD_eq_getElem?_getD, hget] at hslot; exact congrArg some hslot
    · cases h
  · cases h

theorem Trims.held_ok (t : Trims) : TrimsOk t.held := by
  unfold TrimsOk Trims.held clampInt Config.centreLimit Config.scaleLimit
  dsimp only
  omega

/-- R18 to R20: the trims of a READY slot replaced. -/
theorem TableOk.trim {slots : List Slot} (h : TableOk slots) {i : Nat} {p : Profile} (hi : slots[i]? = some (.ready p))
    {trims : Trims} (htrims : TrimsOk trims) : TableOk (slots.set i (.ready { p with trims := trims })) := by
  have hp : ProfileOk p := h.2.1 p (List.mem_of_getElem? hi)
  obtain ⟨hident, hone, hcount, hchain, hstations, -⟩ := hp
  refine h.set_ready (p := { p with trims := trims }) ⟨hident, hone, hcount, hchain, hstations, htrims⟩
    fun j q hji hj hsame => ?_
  exact hji (h.2.2 j i q p hj hi hsame)

theorem identityHeld_iff (slots : List Slot) (id : LensId) :
    identityHeld slots id = true ↔ ∃ p, Slot.ready p ∈ slots ∧ p.ident = id := by
  unfold identityHeld
  rw [List.any_eq_true]
  constructor
  · rintro ⟨x, hx, htrue⟩
    cases x with
    | ready p => exact ⟨p, hx, of_decide_eq_true htrue⟩
    | _ => cases htrue
  · rintro ⟨p, hp, hid⟩
    exact ⟨_, hp, decide_eq_true hid⟩

/-- Steps 5 to 10 passed: the image holds a profile within its limits, of an identity that no READY slot holds. -/
theorem installViolation_none {slots : List Slot} {image : List Byte} (h : installViolation slots image = none) :
    ProfileOk (imageProfile image) ∧ ∀ p, Slot.ready p ∈ slots → p.ident ≠ (imageProfile image).ident := by
  obtain ⟨himage, hheld⟩ := Option.or_eq_none_iff.mp h
  refine ⟨(acceptedImagesHoldProfiles image himage).1, fun p hp hid => ?_⟩
  rw [require_eq_none, (identityHeld_iff _ _).mpr ⟨p, hp, hid⟩] at hheld
  cases hheld

theorem TableOk.install {slots : List Slot} {image : List Byte} (h : TableOk slots)
    (hnone : installViolation slots image = none) (i : Nat) :
    TableOk (slots.set i (.ready (imageProfile image))) := by
  obtain ⟨hprofile, hfree⟩ := installViolation_none hnone
  exact h.set_ready hprofile fun j q _ hj => hfree q (List.mem_of_getElem? hj)

/-! ### The slot that an install in progress names (R4) -/

/-- The slot that a phase names. -/
def IntakePhase.slot : IntakePhase → Option Nat
  | .executing _ i _ _ => some i
  | _ => none

theorem loadingOk_iff (s : State) :
    LoadingOk s ↔ ∀ i, s.slots[i]? = some .loading ↔ s.intake.phase.slot = some i := by
  have named : ∀ i, (∃ seq image unissued, s.intake.phase = .executing seq i image unissued)
      ↔ s.intake.phase.slot = some i := by
    intro i
    unfold IntakePhase.slot
    split
    · next hphase => simp [hphase]
    · next hnot =>
      refine ⟨fun ⟨_, _, _, hphase⟩ => (hnot _ _ _ _ hphase).elim, fun h => (Option.some_ne_none i h.symm).elim⟩
  unfold LoadingOk
  simp only [named]

theorem LoadingOk.of_eq {s t : State} (h : LoadingOk s) (hslots : t.slots = s.slots)
    (hslot : t.intake.phase.slot = s.intake.phase.slot) : LoadingOk t := by
  rw [loadingOk_iff] at *
  rwa [hslots, hslot]

theorem LoadingOk.of_intake {s t : State} (h : LoadingOk s) (hslots : t.slots = s.slots)
    (hintake : t.intake = s.intake) : LoadingOk t := h.of_eq hslots (by rw [hintake])

theorem loadingOk_none {s : State} (hslots : ∀ i : Nat, s.slots[i]? ≠ some Slot.loading)
    (hslot : s.intake.phase.slot = none) :
    LoadingOk s := by
  rw [loadingOk_iff, hslot]
  exact fun i => iff_of_false (hslots i) (Option.some_ne_none i).symm

theorem LoadingOk.no_loading {s : State} (h : LoadingOk s) (hslot : s.intake.phase.slot = none) :
    ∀ i : Nat, s.slots[i]? ≠ some Slot.loading := by
  rw [loadingOk_iff, hslot] at h
  exact fun i hi => Option.some_ne_none i ((h i).mp hi).symm

theorem set_ne_loading {slots : List Slot} {j : Nat} {x : Slot} (hx : x ≠ .loading)
    (h : ∀ i : Nat, i ≠ j → slots[i]? ≠ some Slot.loading) (i : Nat) : (slots.set j x)[i]? ≠ some Slot.loading := by
  rw [List.getElem?_set]
  split
  · split
    · exact fun hi => hx (Option.some.inj hi)
    · exact fun hi => Option.some_ne_none _ hi.symm
  · next hji => exact h i fun hij => hji hij.symm

/-- A slot gets another content than LOADING, and the phase names none. -/
theorem LoadingOk.set {s t : State} (h : LoadingOk s) {j : Nat} {x : Slot} (hx : x ≠ .loading)
    (hnamed : s.intake.phase.slot = none ∨ s.intake.phase.slot = some j) (hslots : t.slots = s.slots.set j x)
    (hslot : t.intake.phase.slot = none) : LoadingOk t := by
  refine loadingOk_none (fun i => ?_) hslot
  rw [hslots]
  refine set_ne_loading hx (fun i hij hi => ?_) i
  rw [loadingOk_iff] at h
  obtain hnone | hsome := hnamed
  · cases hnone.symm.trans ((h i).mp hi)
  · exact hij (Option.some.inj (((h i).mp hi).symm.trans hsome))

/-- Steps 1 to 3 passed: the slot becomes LOADING. -/
theorem LoadingOk.start {s t : State} (h : LoadingOk s) {j : Nat} (hj : j < s.slots.length)
    (hnone : s.intake.phase.slot = none) (hslots : t.slots = s.slots.set j .loading)
    (hslot : t.intake.phase.slot = some j) : LoadingOk t := by
  rw [loadingOk_iff, hslots, hslot]
  intro i
  rw [List.getElem?_set, Option.some.injEq]
  split
  · next hji =>
    subst hji
    simp
  · next hji => exact iff_of_false (h.no_loading hnone i) hji

/-! ### The effects of dockets on the table and the install in progress -/

/-- What a docket in hand may do: keep the table's rules, and with them what R4 says of LOADING. -/
structure TableMoves (s t : State) : Prop where
  table : TableOk s.slots → TableOk t.slots
  loading : TableOk s.slots → DocketsOk s → LoadingOk s → LoadingOk t

theorem TableMoves.of_eq {s t : State} (hslots : t.slots = s.slots)
    (hslot : t.intake.phase.slot = s.intake.phase.slot) : TableMoves s t where
  table := by rw [hslots]; exact id
  loading := fun _ _ h => h.of_eq hslots hslot

theorem TableMoves.of_intake {s t : State} (hslots : t.slots = s.slots) (hintake : t.intake = s.intake) :
    TableMoves s t := .of_eq hslots (by rw [hintake])

theorem tableMoves_reset {s t : State} (hslots : t.slots = dropLoading s.slots) (hphase : t.intake.phase = .idle) :
    TableMoves s t where
  table := fun h => hslots ▸ h.dropLoading
  loading := fun _ _ _ => loadingOk_none (by rw [hslots]; exact dropLoading_loading _) (by rw [hphase]; rfl)

/-- A docket that the phase held without an install is answered, a slot having become another than LOADING. -/
theorem tableMoves_set {s t : State} {j : Nat} {x : Slot} (hx : x ≠ .loading)
    (hnamed : s.intake.phase.slot = none ∨ s.intake.phase.slot = some j) (hslots : t.slots = s.slots.set j x)
    (hphase : t.intake.phase = .writing) (htable : TableOk s.slots → TableOk (s.slots.set j x)) : TableMoves s t where
  table := fun h => hslots ▸ htable h
  loading := fun _ _ h => h.set hx hnamed hslots (by rw [hphase]; rfl)

theorem chooseSlot_lt {slots : List Slot} {field i : Nat} (hlength : slots.length = 12)
    (h : chooseSlot slots field = .ok i) : i < slots.length := by
  unfold chooseSlot at h
  split at h
  · next hlt =>
    cases h
    exact hlt.trans_eq hlength.symm
  split at h
  · split at h
    · next hfind =>
      cases h
      exact (List.findIdx?_eq_some_iff_getElem.mp hfind).1
    · cases h
  · cases h

theorem installCheck_lt {slots : List Slot} {p : Params} {field addr length i : Nat} (hlength : slots.length = 12)
    (h : installCheck slots p field addr length = .ok i) : i < slots.length := by
  unfold installCheck at h
  split at h
  · cases h
  · next hchoose =>
    split at h
    · cases h
    split at h
    · cases h
      exact chooseSlot_lt hlength hchoose
    · cases h

section Reading
variable {s : State} (hnone : s.intake.phase.slot = none)
include hnone

theorem installReturned_table (bytes : List Byte) (seq : Count) : TableMoves s (installReturned bytes seq s) := by
  cases hcheck : installCheck s.slots s.params (slotField bytes) (imageAddr bytes) (imageLength bytes) with
  | error r =>
    have hcheck' : installCheck s.slots (State.params { s with intake := { s.intake with install := true } })
        (slotField bytes) (imageAddr bytes) (imageLength bytes) = .error r := hcheck
    unfold installReturned
    simp only [hcheck']
    exact .of_eq rfl hnone.symm
  | ok i =>
    rw [installReturned_ok hcheck]
    obtain ⟨rest, hphase⟩ := State.readMore_phase (s := { s with
      slots := s.slots.set i .loading
      intake := { s.intake with
        install := true
        phase := .executing seq i (List.replicate (imageLength bytes) 0)
          (imageReads (imageAddr bytes)
            (cutExtent (Config.freePiece s.free) (imageLength bytes) (imageLength bytes))) } }) rfl
    constructor
    · intro h
      rw [State.readMore_slots]
      exact h.set_vacant (fun p => Slot.noConfusion) i
    · intro htable _ h
      refine h.start (installCheck_lt htable.1 hcheck) hnone (State.readMore_slots _) ?_
      rw [hphase]
      rfl

theorem dropReturned_table (bytes : List Byte) (seq : Count) : TableMoves s (dropReturned bytes seq s) := by
  unfold dropReturned
  split
  · exact .of_eq rfl hnone.symm
  · exact tableMoves_set (x := .empty) Slot.noConfusion (.inl hnone) rfl rfl
      fun h => h.set_vacant (fun p => Slot.noConfusion) _

theorem trimReturned_table {bytes : List Byte} {k : Profile → State → State} {seq : Count}
    (hk : ∀ p, s.slots[slotField bytes]? = some (.ready p) → TableMoves s (k p s)) :
    TableMoves s (trimReturned bytes k seq s) := by
  unfold trimReturned
  split
  · exact .of_eq rfl hnone.symm
  · next p hready => exact hk p (readySlot_ok hready)

theorem trimApplied_table {bytes : List Byte} {p : Profile} (hp : s.slots[slotField bytes]? = some (.ready p))
    (asked : Trims) (seq : Count) : TableMoves s (trimApplied bytes asked seq p s) :=
  tableMoves_set (x := .ready { p with trims := asked.held }) Slot.noConfusion (.inl hnone) rfl rfl
    fun h => h.trim hp (Trims.held_ok asked)

theorem nudgeReturned_table (bytes : List Byte) (seq : Count) : TableMoves s (nudgeReturned bytes seq s) := by
  refine trimReturned_table hnone fun p hp => ?_
  split
  · exact trimApplied_table hnone hp _ seq
  · exact .of_eq rfl hnone.symm

theorem resolve_table (seq : Count) (f : FrameFields) : TableMoves s (resolve seq f s) := by
  unfold resolve
  dsimp only
  split
  · exact .of_eq rfl hnone.symm
  · exact .of_eq rfl hnone.symm

theorem frameReturned_table (f : FrameFields) (seq : Count) : TableMoves s (frameReturned f seq s) := by
  unfold frameReturned
  split
  · exact .of_eq rfl hnone.symm
  split
  · exact resolve_table hnone seq f
  · exact .of_eq rfl hnone.symm

theorem optionsReturned_table (bytes : List Byte) (seq : Count) : TableMoves s (optionsReturned bytes seq s) := by
  unfold optionsReturned
  split <;> exact .of_eq rfl hnone.symm

end Reading

theorem validateInstall_table {s u : State} {slot : Nat} (hslots : u.slots = s.slots)
    (hnamed : s.intake.phase.slot = some slot) (image : List Byte) (seq : Count) :
    TableMoves s (validateInstall image seq slot u) := by
  unfold validateInstall
  rw [hslots]
  split
  · exact tableMoves_set (x := .empty) Slot.noConfusion (.inr hnamed) rfl rfl
      fun h => h.set_vacant (fun p => Slot.noConfusion) _
  · next hnone =>
    exact tableMoves_set (x := .ready (imageProfile image)) Slot.noConfusion (.inr hnamed) rfl rfl
      fun h => h.install hnone slot

theorem imageReturned_table (bytes : List Byte) (r : Request) (s : State) : TableMoves s (imageReturned bytes r s) := by
  obtain h | ⟨seq, slot, offset, before, unissued, hphase, -, h⟩ := imageReturned_cases bytes r s
  · exact .of_eq (by rw [h]) (by rw [h])
  have hslot : s.intake.phase.slot = some slot := by rw [hphase]; rfl
  obtain h | h | h := h <;> rw [h]
  · obtain ⟨rest, hmore⟩ := State.readMore_phase (s := { s with
      intake := { s.intake with phase := .executing seq slot (putBytes before offset bytes) unissued } }) rfl
    exact .of_eq (State.readMore_slots _) (by rw [hmore, hslot]; rfl)
  · exact .of_eq rfl (by rw [hslot]; rfl)
  · exact validateInstall_table rfl hslot _ seq

theorem imageFault_table (s : State) : TableMoves s (imageFault s) := by
  unfold imageFault withInstall
  split
  · next hphase =>
    exact tableMoves_set (x := .empty) Slot.noConfusion (.inr (by rw [hphase]; rfl)) rfl rfl
      fun h => h.set_vacant (fun p => Slot.noConfusion) _
  · exact .of_eq rfl rfl

theorem resolvePlaced_table (s : State) : TableMoves s (resolvePlaced s) := by
  unfold resolvePlaced
  split
  · next hphase =>
    split
    · exact resolve_table (by rw [hphase]; rfl) _ _
    · exact .of_eq rfl rfl
  · exact .of_eq rfl rfl

theorem whileReading_table {k : Count → State → State} {s : State}
    (hk : s.intake.phase.slot = none → ∀ seq, TableMoves s (k seq s)) : TableMoves s (whileReading k s) := by
  unfold whileReading
  split
  · next hphase => exact hk (by rw [hphase]; rfl) _
  · exact .of_eq rfl rfl

theorem exchangeFault_table (s : State) : TableMoves s (exchangeFault s) := by
  unfold exchangeFault
  split
  · exact tableMoves_reset rfl rfl
  · exact .of_eq rfl rfl

theorem busError_table (r : Request) (s : State) : TableMoves s (busError r s) := by
  unfold busError
  split
  case h_1 => exact .of_eq rfl rfl
  case h_3 => exact imageFault_table s
  case h_4 | h_5 => exact .of_intake (bandFailed_slots s) (bandFailed_intake s)
  all_goals exact exchangeFault_table s

/-! ### Every effect -/

/-- R165: RUN entry finds no docket at the intake unit. -/
theorem setupReturned_table (bytes : List Byte) (s : State) : TableMoves s (setupReturned bytes s) := by
  unfold setupReturned
  split
  · next hsetup =>
    split
    · refine ⟨fun h => (enterRun_slots _ s) ▸ h, fun _ hdockets h => h.of_eq (enterRun_slots _ s) ?_⟩
      obtain ⟨hphase, -⟩ := hdockets.2.2.2.2.2 (.inl hsetup)
      rw [hphase]
      rfl
    · exact .of_eq rfl rfl
  · exact .of_eq rfl rfl

theorem answerWriteAcked_table (r : Request) (s : State) : TableMoves s (answerWriteAcked r s) := by
  obtain he | ⟨x, -, -, ⟨-, he⟩ | ⟨-, he⟩⟩ := answerWriteAcked_cases r s <;> rw [he] <;> exact .of_eq rfl rfl

/-- R138: the phase that returns to IDLE was WRITING. -/
theorem signalAnswer_table {s : State} {x : InHand} (hx : s.writer.inHand = some x) :
    TableMoves s (signalAnswer x s) := by
  have hslots : (signalAnswer x s).slots = s.slots := by simp
  refine ⟨fun h => hslots ▸ h, fun _ hdockets h => h.of_eq hslots ?_⟩
  unfold signalAnswer
  rw [State.cancelCheck_intake]
  cases hown : x.ofEntry
  · rw [(hdockets.own_hand hx hown).1]
    rfl
  · rfl

theorem effect_table (c : Instr) (r : Request) (s : State) : TableMoves s (effect c r s) := by
  cases c with
  | powerOnReset =>
    refine ⟨fun _ => tableOk_reset, fun _ _ _ => loadingOk_none (fun i hi => ?_) rfl⟩
    cases List.eq_of_mem_replicate (List.mem_of_getElem? hi)
  | softReset => exact tableMoves_reset rfl rfl
  | tick | eraYoungClear | sync | ack | clearFaults | errorClear | irqEnableUpdate | otherRegisterWrite =>
    exact .of_eq rfl rfl
  | lensMessage line => exact .of_intake (hearLine_slots line s) (hearLine_intake line s)
  | quietTimerExpiry =>
    rw [effect_quietTimerExpiry]
    split <;> exact .of_eq rfl rfl
  | temperatureSample t => exact .of_intake (thermalSample_slots _ s) (thermalSample_intake _ s)
  | cancel => exact .of_intake (cancelRequest_slots s) (cancelRequest_intake s)
  | modeRun =>
    rw [effect_modeRun]
    split <;> exact .of_eq rfl rfl
  | modeReopen =>
    rw [effect_modeReopen]
    split <;> exact .of_eq rfl rfl
  | postWrite value =>
    rw [effect_postWrite]
    split
    · split
      · exact .of_intake (acceptPost_slots _ s) (acceptPost_intake _ s)
      · exact .of_eq rfl rfl
    · exact .of_eq rfl rfl
  | xbaseWrite value =>
    rw [effect_xbaseWrite]
    split
    · split <;> exact .of_eq rfl rfl
    · exact .of_eq rfl rfl
  | setupReadReturn tag bytes => exact setupReturned_table bytes s
  | setupReadFault => exact .of_eq rfl rfl
  | takeDocket =>
    rw [effect_takeDocket]
    split
    · next hcan =>
      simp only [State.canTake, Bool.and_eq_true, beq_iff_eq] at hcan
      obtain ⟨⟨⟨⟨-, hidle⟩, -⟩, -⟩, -⟩ := hcan
      exact .of_eq rfl (by rw [hidle]; rfl)
    · exact .of_eq rfl rfl
  | markDocket =>
    rw [effect_markDocket]
    split
    · next hcan =>
      obtain ⟨hready, -⟩ := Bool.and_eq_true_iff.mp hcan
      have hidle : s.intake.phase = .idle := by simpa using (Bool.and_eq_true_iff.mp hready).2
      exact .of_eq rfl (by rw [hidle]; rfl)
    · exact .of_eq rfl rfl
  | frameDocket tag bytes => exact whileReading_table fun h seq => frameReturned_table h _ seq
  | installDocket tag bytes => exact whileReading_table fun h seq => installReturned_table h bytes seq
  | dropDocket tag bytes => exact whileReading_table fun h seq => dropReturned_table h bytes seq
  | trimNudge tag bytes => exact whileReading_table fun h seq => nudgeReturned_table h bytes seq
  | trimSet tag bytes =>
    exact whileReading_table fun h seq => trimReturned_table h fun p hp => trimApplied_table h hp _ seq
  | badTrimMode tag bytes =>
    exact whileReading_table fun h seq => trimReturned_table h fun p _ => .of_eq rfl h.symm
  | optionsDocket tag bytes => exact whileReading_table fun h seq => optionsReturned_table h bytes seq
  | badKindDocket tag bytes =>
    exact whileReading_table (k := fun seq s => s.answer (refusal seq (docketKind bytes) false .badKind []))
      fun h _ => .of_eq rfl h.symm
  | installValidation tag bytes => exact imageReturned_table bytes r s
  | imageReadFault => exact imageFault_table s
  | resolveFrame => exact resolvePlaced_table s
  | pick => exact .of_intake (State.pick_slots s) (State.pick_intake s)
  | bandReadReturn tag bytes => exact .of_intake (rowReturned_slots bytes r s) (rowReturned_intake bytes r s)
  | bandWriteAck => exact .of_intake (writeAcked_slots r s) (writeAcked_intake r s)
  | bandBusError => exact .of_intake (bandFailed_slots s) (bandFailed_intake s)
  | memoryRequestTimeout => exact busError_table r s
  | drainEnd => exact .of_intake (drainEnd_slots s) (drainEnd_intake s)
  | outcomeTakeUp =>
    rw [effect_outcomeTakeUp]
    split
    · exact .of_intake (takeUpAnswer_slots s) (takeUpAnswer_intake s)
    · exact .of_eq rfl rfl
  | outcomeWriteAck => exact answerWriteAcked_table r s
  | reportWriteTakeUp =>
    rw [effect_reportWriteTakeUp]
    split <;> exact .of_eq rfl rfl
  | reportWriteAck =>
    rw [effect_reportWriteAck]
    split <;> exact .of_eq rfl rfl
  | signallingUpdate => exact withInHand_keeps (.of_eq rfl rfl) fun x hx _ => signalAnswer_table hx
  | exchangeFault => exact exchangeFault_table s
  | cancelComplete =>
    rw [effect_cancelComplete]
    split <;> exact .of_eq rfl rfl

/-- What a step does: nothing but the port and the queue, or a command's effect. -/
theorem step_effect {s t : State} (h : step s = .next t) : (∃ p q, t = { s with port := p, pending := q })
    ∨ ∃ c r p q, t = effect c r { s with port := p, pending := q } := by
  unfold step at h
  split at h
  · exact .inl ⟨s.port, s.pending, (Host.Outcome.next.inj h).symm⟩
  · obtain rfl | ⟨p, rfl⟩ | ⟨r, p, rfl⟩ := exec_effect h
    · exact .inl ⟨s.port, _, rfl⟩
    · exact .inl ⟨p, _, rfl⟩
    · exact .inr ⟨_, r, p, _, rfl⟩

/-- Settles O54: an install writes a slot with what the checks of its image passed, a TRIM with trims held at their
limits, and each other change of a slot empties it; a slot is LOADING from the install's start to its end alone. -/
theorem tableKept : Obligations.TableKept := by
  refine ⟨fun s t htable h => ?_, fun s t htable hloading hdockets h => ?_⟩
  · obtain ⟨p, q, rfl⟩ | ⟨c, r, p, q, rfl⟩ := step_effect h
    · exact htable
    · exact (effect_table c r { s with port := p, pending := q }).table htable
  · obtain ⟨p, q, rfl⟩ | ⟨c, r, p, q, rfl⟩ := step_effect h
    · exact hloading
    · exact (effect_table c r { s with port := p, pending := q }).loading htable hdockets hloading

end Sys2Proof.Machine

/-! PROOFS. The dockets at the intake unit: taking and marking (O33), DROP and unknown kinds (O38), TRIM (O39) and
OPTIONS (O40). -/

namespace Sys2Proof.Machine

/-! ### What the read of each kind of docket leads to -/

section Docket
variable {s : State} {tag : Nat} {seq : Count} {bytes : List Byte} (h : s.awaitsDocket tag seq bytes)
include h

theorem exec_frameDocket (hkind : docketKind bytes = 1) : exec (.frameDocket tag bytes) s
    = .next (frameReturned (frameFields bytes) seq { s with port := s.portWithout tag }) :=
  congrArg _ (docketReturned_live h (by simp [hkind]) _)

theorem exec_installDocket (hkind : docketKind bytes = 2) : exec (.installDocket tag bytes) s
    = .next (installReturned bytes seq { s with port := s.portWithout tag }) :=
  congrArg _ (docketReturned_live h (by simp [hkind]) _)

theorem exec_dropDocket (hkind : docketKind bytes = 3) : exec (.dropDocket tag bytes) s
    = .next (dropReturned bytes seq { s with port := s.portWithout tag }) :=
  congrArg _ (docketReturned_live h (by simp [hkind]) _)

theorem exec_trimNudge (hkind : docketKind bytes = 4) (hmode : trimMode bytes = 0) : exec (.trimNudge tag bytes) s
    = .next (nudgeReturned bytes seq { s with port := s.portWithout tag }) :=
  congrArg _ (docketReturned_live h (by simp [hkind, hmode]) _)

theorem exec_trimSet (hkind : docketKind bytes = 4) (hmode : trimMode bytes = 1) : exec (.trimSet tag bytes) s
    = .next (setReturned bytes seq { s with port := s.portWithout tag }) :=
  congrArg _ (docketReturned_live h (by simp [hkind, hmode]) _)

theorem exec_badTrimMode (hkind : docketKind bytes = 4) (hmode : 1 < trimMode bytes) :
    exec (.badTrimMode tag bytes) s = .next (badModeReturned bytes seq { s with port := s.portWithout tag }) :=
  congrArg _ (docketReturned_live h (by simp [hkind, hmode]) _)

theorem exec_optionsDocket (hkind : docketKind bytes = 5) : exec (.optionsDocket tag bytes) s
    = .next (optionsReturned bytes seq { s with port := s.portWithout tag }) :=
  congrArg _ (docketReturned_live h (by simp [hkind]) _)

theorem exec_badKindDocket (hkind : docketKind bytes = 0 ∨ 5 < docketKind bytes) : exec (.badKindDocket tag bytes) s
    = .next (s.answeredAtIntake tag (refusal seq (docketKind bytes) false .badKind [])) :=
  congrArg _ (docketReturned_live h (by simpa using hkind) _)

end Docket

/-! ### The slot a docket names (R17, R18) -/

theorem readySlot_of_ready {slots : List Slot} {field : Nat} {p : Profile} (hfield : field < 12)
    (h : slots[field]? = some (.ready p)) : readySlot slots field = .ok p := by
  have hslot : slotAt slots field = .ready p := by rw [slotAt, List.getD_eq_getElem?_getD, h]; rfl
  rw [readySlot, if_pos (show field < Config.slotCount from hfield), hslot]

theorem readySlot_badSlot {slots : List Slot} {field : Nat} (h : 12 ≤ field) :
    readySlot slots field = .error .badSlot :=
  if_neg (Nat.not_lt.mpr h)

theorem readySlot_slotEmpty {slots : List Slot} {field : Nat} (hfield : field < 12)
    (h : ∀ p, slots[field]? ≠ some (.ready p)) : readySlot slots field = .error .slotEmpty := by
  cases hready : readySlot slots field with
  | ok p => exact absurd (readySlot_ok hready) (h p)
  | error r =>
    rw [readySlot, if_pos (show field < Config.slotCount from hfield)] at hready
    split at hready
    · cases hready
    · exact hready.symm

/-! ### Taking and marking (O33) -/

theorem clearFlag_bits (map : BitVec 64) (seq : Count) :
    ∀ i < 64, (clearFlag map seq).getLsbD i = (map.getLsbD i && decide (i ≠ seq.toNat % 64)) :=
  fun _ hi => getLsbD_clearFlag map seq hi

theorem State.canTake_iff (s : State) : s.canTake = true ↔ (s.win.state = .run ∨ s.win.state = .hot)
    ∧ s.intake.phase = .idle ∧ s.intake.install = false ∧ s.win.cancel = none ∧ s.intake.taken ≠ s.win.post := by
  simp [State.canTake, State.working_iff, and_assoc]

theorem State.canMark_iff (s : State) : s.canMark = true ↔ (s.win.state = .run ∨ s.win.state = .hot)
    ∧ s.intake.phase = .idle ∧ ∃ c, s.win.cancel = some c ∧ s.intake.taken ≠ c.boundary := by
  unfold State.canMark
  cases s.win.cancel <;> simp [State.working_iff, and_assoc]

theorem exec_takeDocket (s : State) : exec .takeDocket s = .next (if s.canTake then
    { s with
      intake := s.intake.advance (.reading s.intake.taken)
      port := s.port.issueAll [(.docket, .read (docketAddr s.win.xbase s.intake.taken) Config.docketReadBytes)] }
    else s) := rfl

theorem exec_markDocket (s : State) : exec .markDocket s = .next (if s.canMark then
    { s with
      intake := s.intake.advance .writing
      writer := s.writer.add [.intake (markedAnswer s.intake.taken)] }
    else s) := rfl

/-- Settles O33. -/
theorem docketsTakenAndMarked : Obligations.DocketsTakenAndMarked := by
  refine ⟨fun s hstate hidle hinstall hcancel hpost => ?_, fun s h => ?_, fun s c hstate hidle hcancel hboundary => ?_,
    fun s h => ?_⟩
  · have hcan : s.canTake = true := (State.canTake_iff s).mpr ⟨hstate, hidle, hinstall, hcancel, hpost⟩
    rw [exec_takeDocket, if_pos hcan]
    exact ⟨_, rfl, clearFlag_bits _ _, rfl⟩
  · rw [exec_takeDocket, if_neg fun hcan => ?_]
    obtain ⟨hstate, hidle, hinstall, hcancel, hpost⟩ := (State.canTake_iff s).mp hcan
    obtain h | h | h | h | h | h := h
    · simp [h] at hstate
    · simp [h] at hstate
    · exact h hidle
    · simp [h] at hinstall
    · exact h hcancel
    · exact hpost h
  · have hcan : s.canMark = true := (State.canMark_iff s).mpr ⟨hstate, hidle, c, hcancel, hboundary⟩
    rw [exec_markDocket, if_pos hcan]
    exact ⟨_, rfl, clearFlag_bits _ _, rfl⟩
  · rw [exec_markDocket, if_neg fun hcan => ?_]
    obtain ⟨-, hidle, c, hcancel, hboundary⟩ := (State.canMark_iff s).mp hcan
    obtain h | h | ⟨c', hc', h⟩ := h
    · simp [h] at hcancel
    · exact h hidle
    · cases hcancel.symm.trans hc'
      exact hboundary h

/-! ### DROP and unknown kinds (O38) -/

/-- Settles O38. -/
theorem dropAndUnknownKind : Obligations.DropAndUnknownKind := by
  intro s tag seq bytes h
  refine ⟨fun hkind => ⟨fun hfield => ?_, fun hfield => ⟨fun hempty => ?_, fun p hp => ?_⟩⟩, fun hkind => ?_⟩
  · rw [exec_dropDocket h hkind, dropReturned, readySlot_badSlot hfield]
    rfl
  · rw [exec_dropDocket h hkind, dropReturned, readySlot_slotEmpty hfield hempty]
    rfl
  · rw [exec_dropDocket h hkind, dropReturned, readySlot_of_ready hfield hp]
    rfl
  · exact exec_badKindDocket h hkind

/-! ### TRIM (O39) -/

theorem Trims.inRange_iff_held (t : Trims) : t.inRange = true ↔ t.held = t := by
  rw [Trims.inRange_iff]
  obtain ⟨x, y, scale⟩ := t
  simp only [TrimsOk, Trims.held, clampInt, Config.centreLimit, Config.scaleLimit, Trims.mk.injEq]
  omega

theorem Trims.nudgeable_iff (t : Trims) : t.nudgeable = true ↔ |t.x| ≤ 64 ∧ |t.y| ≤ 64 ∧ |t.scale| ≤ 64 := by
  simp only [Trims.nudgeable, Bool.and_eq_true, within_iff, Config.nudgeLimit, abs_le, and_assoc]

/-- The slot's new trims and the docket's answer. -/
theorem trimApplied_eq (bytes : List Byte) (asked : Trims) (seq : Count) (p : Profile) (s : State) :
    trimApplied bytes asked seq p s
      = { s with
          slots := s.slots.set (slotField bytes) (.ready { p with trims := asked.held })
          intake := { s.intake with phase := .writing }
          writer := { s.writer with waiting := s.writer.waiting ++ [.intake
            { seq, kind := 4, rush := false, reason := none
              outcome := if asked.held = asked then .done else .doneNoted
              notes := some (if asked.held = asked then 0 else 0x0800)
              results := trimResults asked.held }] } } := by
  by_cases hheld : asked.held = asked
  · have hnotes : noteIf (!asked.inRange) .atLimit 0 = 0 := by
      rw [(Trims.inRange_iff_held asked).mpr hheld]
      rfl
    simp only [trimApplied, applyTrims, State.answer, completion, hnotes, if_pos hheld]
    rfl
  · have hnotes : noteIf (!asked.inRange) .atLimit 0 = 0x0800 := by
      have hout : asked.inRange = false := by simpa using mt (Trims.inRange_iff_held asked).mp hheld
      rw [hout]
      rfl
    simp only [trimApplied, applyTrims, State.answer, completion, hnotes, if_neg hheld]
    rfl

/-- Settles O39. -/
theorem trimDockets : Obligations.TrimDockets := by
  refine ⟨fun s tag seq bytes p h hkind hfield hp => ?_, fun s tag seq bytes h hkind => ?_⟩
  · have hready := readySlot_of_ready hfield hp
    refine ⟨fun hmode => ⟨fun hsteps => ?_, fun hsteps => ?_⟩, fun hmode => ?_, fun hmode => ?_⟩
    · have hnudge := (Trims.nudgeable_iff _).mpr hsteps
      rw [exec_trimNudge h hkind hmode, nudgeReturned, trimReturned, hready]
      dsimp only
      rw [if_pos hnudge, trimApplied_eq]
      rfl
    · have hnudge : ¬ (trimValues bytes).nudgeable = true := by
        rw [Trims.nudgeable_iff]
        omega
      rw [exec_trimNudge h hkind hmode, nudgeReturned, trimReturned, hready]
      dsimp only
      rw [if_neg hnudge]
      rfl
    · rw [exec_trimSet h hkind hmode, setReturned, trimReturned, hready]
      dsimp only
      rw [trimApplied_eq]
      rfl
    · rw [exec_badTrimMode h hkind hmode, badModeReturned, trimReturned, hready]
      rfl
  · have refused {r : Reason} (hready : readySlot s.slots (slotField bytes) = .error r) :
        exec (if trimMode bytes = 0 then .trimNudge tag bytes
          else if trimMode bytes = 1 then .trimSet tag bytes else .badTrimMode tag bytes) s
        = .next (s.answeredAtIntake tag (refusal seq 4 false r [(128, [0, 0, 0, 0, 0, 0])])) := by
      split
      · next hmode =>
        rw [exec_trimNudge h hkind hmode, nudgeReturned, trimReturned, hready]
        rfl
      split
      · next hmode =>
        rw [exec_trimSet h hkind hmode, setReturned, trimReturned, hready]
        rfl
      · next hzero hone =>
        rw [exec_badTrimMode h hkind (by omega), badModeReturned, trimReturned, hready]
        rfl
    exact ⟨fun hfield => refused (readySlot_badSlot hfield),
      fun hfield hempty => refused (readySlot_slotEmpty hfield hempty)⟩

/-! ### OPTIONS (O40) -/

theorem optionValid_iff (bytes : List Byte) (i : Nat) (hi : i < 4) : optionValid i (optionValue bytes i) = true ↔
    (i = 0 ∧ optionValue bytes 0 ∈ [0, 1, 2, 4, 8, 16]) ∨ (i = 1 ∧ optionValue bytes 1 ≤ 1)
      ∨ (i = 2 ∧ optionValue bytes 2 ≤ 1) ∨ i = 3 := by
  interval_cases i <;> simp [optionValid, groupingValid]

theorem firstInvalidOption_none {bytes : List Byte}
    (h : ∀ i < 4, optionPresent bytes i = true → optionValid i (optionValue bytes i) = true) :
    firstInvalidOption bytes = none := by
  refine List.find?_eq_none.mpr fun i hi => ?_
  have hlt : i < 4 := by simp at hi; omega
  simpa using h i hlt

theorem firstInvalidOption_first {bytes : List Byte} {i : Nat} (hi : i < 4) (hpresent : optionPresent bytes i = true)
    (hinvalid : optionValid i (optionValue bytes i) = false)
    (hbefore : ∀ j < i, optionPresent bytes j = true → optionValid j (optionValue bytes j) = true) :
    firstInvalidOption bytes = some i := by
  have hrange : [0, 1, 2, 3] = List.range i ++ i :: List.range' (i + 1) (3 - i) := by
    interval_cases i <;> rfl
  rw [firstInvalidOption, hrange, List.find?_append, List.find?_eq_none.mpr fun j hj => by
    simpa using hbefore j (List.mem_range.mp hj), Option.none_or]
  exact List.find?_cons_of_pos (by simp [hpresent, hinvalid])

theorem Signalling.setGrouping_cases (g : Signalling) (n : Nat) :
    (0 < n → n ≤ g.counter →
      g.setGrouping n = { g with grouping := n, counter := 0, flags := { g.flags with done := true } })
    ∧ (0 < n → g.counter < n → g.setGrouping n = { g with grouping := n })
    ∧ (n = 0 → 0 < g.counter →
      g.setGrouping n = { g with grouping := n, counter := 0, flags := { g.flags with done := true } })
    ∧ (n = 0 → g.counter = 0 → g.setGrouping n = { g with grouping := n }) := by
  unfold Signalling.setGrouping
  refine ⟨fun hn hle => if_pos (.inl ⟨hn, hle⟩), fun hn hlt => if_neg ?_, fun hn hpos => if_pos (.inr ⟨hn, hpos⟩),
    fun hn hzero => if_neg ?_⟩
  · omega
  · omega

/-- R144: the present fields of an OPTIONS docket, applied together. -/
theorem applyOptions_eq (bytes : List Byte) (g : Signalling) : applyOptions bytes g
    = { (if optionPresent bytes 0 then g.setGrouping (optionValue bytes 0) else g) with
        missing := if optionPresent bytes 1 then (if optionValue bytes 1 = 1 then .refuse else .pass) else g.missing
        stale := if optionPresent bytes 2 then (if optionValue bytes 2 = 1 then .pass else .hold) else g.stale
        mask := if optionPresent bytes 3 then .ofByte (optionValue bytes 3) else g.mask } := by
  have grouped : (if optionPresent bytes 0 then g.setGrouping (optionValue bytes 0) else g).missing = g.missing
      ∧ (if optionPresent bytes 0 then g.setGrouping (optionValue bytes 0) else g).stale = g.stale
      ∧ (if optionPresent bytes 0 then g.setGrouping (optionValue bytes 0) else g).mask = g.mask := by
    unfold Signalling.setGrouping
    split
    · split <;> exact ⟨rfl, rfl, rfl⟩
    · exact ⟨rfl, rfl, rfl⟩
  obtain ⟨hmissing, hstale, hmask⟩ := grouped
  unfold applyOptions
  dsimp only
  generalize (if optionPresent bytes 0 then g.setGrouping (optionValue bytes 0) else g) = u at *
  rw [← hmissing, ← hstale, ← hmask]
  cases optionPresent bytes 1 <;> cases optionPresent bytes 2 <;> cases optionPresent bytes 3 <;> rfl

/-- Settles O40. -/
theorem optionsDocketHandled : Obligations.OptionsDocketHandled := by
  refine ⟨Signalling.setGrouping_cases,
    fun s tag seq bytes h hkind => ⟨fun hvalid => ?_, fun i hi hnamed hbad hfirst => ?_⟩⟩
  · have hnone := firstInvalidOption_none fun i hi hpresent => (optionValid_iff bytes i hi).mpr (hvalid i hi hpresent)
    rw [exec_optionsDocket h hkind, optionsReturned, hnone]
    dsimp only
    rw [applyOptions_eq]
    rfl
  · have hinvalid : optionValid i (optionValue bytes i) = false := by
      simpa using mt (optionValid_iff bytes i hi).mp hbad
    have hsome := firstInvalidOption_first hi hnamed hinvalid fun j hj hpresent =>
      (optionValid_iff bytes j (by omega)).mpr (hfirst j hj hpresent)
    rw [exec_optionsDocket h hkind, optionsReturned, hsome]
    rfl

end Sys2Proof.Machine

/-! PROOFS. INSTALL dockets and the image's reads (O34, O35), and FRAME dockets up to their resolution (O20, O21). -/

namespace Sys2Proof.Machine

/-! ### The first three checks of an INSTALL (O34) -/

theorem chooseSlot_of_lt {slots : List Slot} {field : Nat} (h : field < 12) : chooseSlot slots field = .ok field :=
  if_pos h

theorem chooseSlot_badSlot {slots : List Slot} {field : Nat} (h : 12 ≤ field) (hne : field ≠ 15) :
    chooseSlot slots field = .error .badSlot :=
  (if_neg (Nat.not_lt.mpr h)).trans (if_neg hne)

theorem chooseSlot_free {slots : List Slot} {i : Nat} (hi : slots[i]? = some .empty)
    (hfirst : ∀ j < i, slots[j]? ≠ some .empty) : chooseSlot slots 15 = .ok i := by
  obtain ⟨hlt, hget⟩ := List.getElem?_eq_some_iff.mp hi
  have hfind : slots.findIdx? (· = Slot.empty) = some i := by
    refine List.findIdx?_eq_some_iff_getElem.mpr ⟨hlt, by simp [hget], fun j hj => ?_⟩
    have hne := hfirst j hj
    rw [List.getElem?_eq_getElem (by omega)] at hne
    simpa using fun heq => hne (congrArg some heq)
  unfold chooseSlot
  rw [if_neg (by decide), if_pos rfl, hfind]

theorem chooseSlot_none {slots : List Slot} (h : ∀ x ∈ slots, x ≠ .empty) :
    chooseSlot slots 15 = .error .noFreeSlot := by
  have hfind : slots.findIdx? (· = Slot.empty) = none :=
    List.findIdx?_eq_none_iff.mpr fun x hx => by simpa using h x hx
  unfold chooseSlot
  rw [if_neg (by decide), if_pos rfl, hfind]

theorem inWindow_iff (p : Params) (addr size : Nat) :
    inWindow p addr size = true ↔ p.low ≤ addr ∧ addr + size ≤ p.high := decide_eq_true_iff

section Chosen
variable {slots : List Slot} {p : Params} {field addr length i : Nat} (h : chooseSlot slots field = .ok i)
include h

theorem installCheck_imageLength (hlength : length < 36 ∨ 1072 < length) :
    installCheck slots p field addr length = .error .imageLength := by
  rw [installCheck, h]
  exact if_pos hlength

theorem installCheck_outOfWindow (hlow : 36 ≤ length) (hhigh : length ≤ 1072)
    (hwindow : addr < p.low ∨ p.high < addr + length) :
    installCheck slots p field addr length = .error .outOfWindow := by
  have hout : ¬ inWindow p addr length = true := by
    rw [inWindow_iff]
    omega
  rw [installCheck, h]
  exact (if_neg (by rw [Config.imageMin, Config.imageMax]; omega)).trans (if_neg hout)

theorem installCheck_ok (hlow : 36 ≤ length) (hhigh : length ≤ 1072) (hfrom : p.low ≤ addr)
    (hto : addr + length ≤ p.high) : installCheck slots p field addr length = .ok i := by
  rw [installCheck, h]
  exact (if_neg (by rw [Config.imageMin, Config.imageMax]; omega)).trans
    (if_pos ((inWindow_iff p addr length).mpr ⟨hfrom, hto⟩))

end Chosen

theorem installCheck_error {slots : List Slot} {field : Nat} {r : Reason} (h : chooseSlot slots field = .error r)
    (p : Params) (addr length : Nat) : installCheck slots p field addr length = .error r := by rw [installCheck, h]

/-- An INSTALL refused at one of its first three checks; the flag stands until the answer is complete (R6). -/
theorem installReturned_error {bytes : List Byte} {s : State} {r : Reason}
    (h : installCheck s.slots s.params (slotField bytes) (imageAddr bytes) (imageLength bytes) = .error r)
    (seq : Count) : installReturned bytes seq s
      = State.answer { s with intake := { s.intake with install := true } }
          (refusal seq 2 false r (installResults none none none)) := by
  have h' : installCheck s.slots (State.params { s with intake := { s.intake with install := true } })
      (slotField bytes) (imageAddr bytes) (imageLength bytes) = .error r := h
  unfold installReturned
  simp only [h']

/-- Settles O34. -/
theorem installDocketChecked : Obligations.InstallDocketChecked := by
  intro s tag seq bytes h hkind
  have refused {r : Reason}
      (hcheck : installCheck s.slots s.params (slotField bytes) (imageAddr bytes) (imageLength bytes) = .error r) :
      exec (.installDocket tag bytes) s = .next (State.answer
        { s with port := s.portWithout tag, intake := { s.intake with install := true } }
        (refusal seq 2 false r (installResults none none none))) := by
    rw [exec_installDocket h hkind]
    exact congrArg _ (installReturned_error (s := { s with port := s.portWithout tag }) hcheck seq)
  refine ⟨fun hfield hne => ?_, fun hfield hfull => ?_, fun i hi => ?_⟩
  · exact refused (installCheck_error (chooseSlot_badSlot hfield hne) _ _ _)
  · exact refused (installCheck_error (hfield ▸ chooseSlot_none hfull) _ _ _)
  have hchoose : chooseSlot s.slots (slotField bytes) = .ok i := by
    obtain ⟨hfield, rfl⟩ | ⟨hfield, hempty, hfirst⟩ := hi
    · exact chooseSlot_of_lt hfield
    · rw [hfield]
      exact chooseSlot_free hempty hfirst
  refine ⟨fun hlength => refused (installCheck_imageLength hchoose hlength), fun hlow hhigh =>
    ⟨fun hwindow => refused (installCheck_outOfWindow hchoose hlow hhigh hwindow), fun hfrom hto => ?_⟩⟩
  have hcheck := installCheck_ok hchoose hlow hhigh hfrom hto
  obtain ⟨hpositive, hsum⟩ := cutExtent_spec (Config.freePiece s.free) (le_refl (imageLength bytes))
  refine ⟨cutExtent (Config.freePiece s.free) (imageLength bytes) (imageLength bytes), hpositive, hsum, ?_⟩
  have hreads : imageReads (imageAddr bytes)
      (cutExtent (Config.freePiece s.free) (imageLength bytes) (imageLength bytes)) ≠ [] := by
    intro hnil
    have hzero := congrArg List.length hnil
    simp only [imageReads, List.length_map, List.length_range, List.length_nil, List.length_eq_zero_iff] at hzero
    rw [hzero, List.sum_nil] at hsum
    omega
  rw [exec_installDocket h hkind, installReturned_ok (s := { s with port := s.portWithout tag }) hcheck]
  exact State.readMore_reads (s := { s with
    slots := s.slots.set i .loading
    port := s.portWithout tag
    intake := { s.intake with
      install := true
      phase := .executing seq i (List.replicate (imageLength bytes) 0)
        (imageReads (imageAddr bytes)
          (cutExtent (Config.freePiece s.free) (imageLength bytes) (imageLength bytes))) } }) rfl hreads

/-! ### How an install ends (O35) -/

theorem exec_installValidation {s : State} {tag offset : Nat} {bytes : List Byte}
    (h : s.awaitsRead tag (.image offset) bytes.length) : ∃ r : Request, r.use = .image offset
      ∧ exec (.installValidation tag bytes) s
        = .next (imageReturned bytes r { s with port := s.portWithout tag }) := by
  obtain ⟨addr, hfind⟩ := h
  exact ⟨_, rfl, congrArg _ (onReply_live hfind (by simp [Use.isImage, Access.readLength]) rfl _)⟩

theorem exec_imageReadFault {s : State} {tag offset length : Nat} (h : s.awaitsRead tag (.image offset) length) :
    exec (.imageReadFault tag) s = .next (imageFault { s with port := s.portWithout tag }) := by
  obtain ⟨addr, hfind⟩ := h
  exact congrArg _ (onReply_live hfind rfl rfl _)

/-- The bytes join the image; then more reads, the wait for those outstanding, or the checks. -/
theorem imageReturned_executing {s : State} {seq : Count} {slot offset : Nat} {before : List Byte}
    {unissued : List (Use × Access)} (hphase : s.intake.phase = .executing seq slot before unissued) {r : Request}
    (huse : r.use = .image offset) (bytes : List Byte) : imageReturned bytes r s
      = State.proceed { s with intake := { s.intake with
            phase := .executing seq slot (putBytes before offset bytes) unissued } }
          Use.isImage unissued State.readMore (validateInstall (putBytes before offset bytes) seq slot) := by
  unfold imageReturned
  rw [hphase, huse]

theorem imageReturned_not_executing {s : State}
    (h : ∀ seq slot image unissued, s.intake.phase ≠ .executing seq slot image unissued) (bytes : List Byte)
    (r : Request) : imageReturned bytes r s = s ∧ imageFault s = s := by
  constructor
  · obtain he | ⟨seq, slot, offset, before, unissued, hphase, -⟩ := imageReturned_cases bytes r s
    · exact he
    · exact absurd hphase (h _ _ _ _)
  · unfold imageFault withInstall
    split
    · next hphase => exact absurd hphase (h _ _ _ _)
    · rfl

/-- Steps 5 to 10 of an install, on an image whose bytes have all arrived. -/
theorem validateInstall_eq (image : List Byte) (seq : Count) (slot : Nat) (s : State) :
    (∀ v, imageViolation image = some v → validateInstall image seq slot s
      = State.answer { s with slots := s.slots.set slot .empty }
          (refusal seq 2 false v.reason (installResults (some slot) v.station v.knot)))
    ∧ (imageViolation image = none → (∃ p, Slot.ready p ∈ s.slots ∧ p.ident = (imageProfile image).ident) →
      validateInstall image seq slot s = State.answer { s with slots := s.slots.set slot .empty }
        (refusal seq 2 false .duplicateLens (installResults (some slot) none none)))
    ∧ (imageViolation image = none → (∀ p, Slot.ready p ∈ s.slots → p.ident ≠ (imageProfile image).ident) →
      validateInstall image seq slot s
        = State.answer { s with slots := s.slots.set slot (.ready (imageProfile image)) }
            (completion seq 2 0 (installResults (some slot) none none))) := by
  unfold validateInstall installViolation
  refine ⟨fun v hv => ?_, fun hnone hheld => ?_, fun hnone hfree => ?_⟩
  · simp only [hv, Option.some_or]
  · rw [hnone, Option.none_or, (identityHeld_iff _ _).mpr hheld]
    rfl
  · have hnot : identityHeld s.slots (imageProfile image).ident = false := by
      rw [Bool.eq_false_iff, Ne, identityHeld_iff]
      rintro ⟨p, hp, hid⟩
      exact hfree p hp hid
    rw [hnone, Option.none_or, hnot]
    rfl

/-- Settles O35. -/
theorem installEnds : Obligations.InstallEnds := by
  refine ⟨fun b => ⟨length_stationsFrom b _ _, fun h => imageViolation_of_layout h,
      fun hl h => imageViolation_of_count hl h,
      fun hl hc => ⟨fun _ hj hbefore h => imageViolation_of_record hl hc hj hbefore h,
        fun hfits h => imageViolation_of_end hl hc hfits h⟩,
      fun hl hc hw h => imageViolation_of_trims hl hc hw h,
      fun hl hc hw ht _ _ hx hbefore => ⟨fun h => imageViolation_of_focal hl hc hw ht hx hbefore h,
        fun hf h => imageViolation_of_knotCount hl hc hw ht hx hbefore hf h,
        fun hf hlow hhigh =>
          ⟨fun _ hi hfirst h => imageViolation_of_order hl hc hw ht hx hbefore hf hlow hhigh hi hfirst h,
            fun hordered _ _ hk hfirst h =>
              imageViolation_of_value hl hc hw ht hx hbefore hf hlow hhigh hordered hk hfirst h⟩⟩,
      fun hl hc hw ht h => imageViolation_none hl hc hw ht h⟩,
    fun s tag offset bytes h hnot => ?_,
    fun s tag offset seq slot before unissued bytes hphase h => ?_⟩
  · obtain ⟨r, -, hexec⟩ := exec_installValidation h
    obtain ⟨hreturned, hfault⟩ := imageReturned_not_executing (s := { s with port := s.portWithout tag }) hnot bytes r
    exact ⟨by rw [hexec, hreturned], by rw [exec_imageReadFault h, hfault]⟩
  obtain ⟨r, huse, hexec⟩ := exec_installValidation h
  rw [imageReturned_executing (s := { s with port := s.portWithout tag }) hphase huse] at hexec
  have outstanding : Port.has (s.portWithout tag) Use.isImage = true
      ↔ ∃ q ∈ s.port.reqs, q.tag ≠ tag ∧ q.live = true ∧ q.use.isImage = true := has_portWithout s tag _
  have checked (hlast : unissued = [] ∧ ∀ q ∈ s.port.reqs, q.tag ≠ tag → q.live = true → q.use.isImage = false) :
      exec (.installValidation tag bytes) s
        = .next (validateInstall (putBytes before offset bytes) seq slot { s with
            port := s.portWithout tag
            intake := { s.intake with phase := .executing seq slot (putBytes before offset bytes) unissued } }) := by
    obtain ⟨rfl, hlast⟩ := hlast
    have hnone : Port.has (s.portWithout tag) Use.isImage = false := by
      rw [Bool.eq_false_iff, Ne, outstanding]
      rintro ⟨q, hq, hne, hlive, himage⟩
      rw [hlast q hq hne hlive] at himage
      cases himage
    rw [hexec]
    simp [State.proceed, hnone]
  refine ⟨fun hmore => ?_, fun hnil hwaits => ?_, fun hlast v hv => ?_, fun hlast hnone =>
    ⟨fun hheld => ?_, fun hfree => ?_⟩, ?_⟩
  · have hproceed : unissued.isEmpty = false := by simpa using hmore
    rw [hexec]
    simp only [State.proceed, hproceed]
    exact State.readMore_reads (s := { s with
      port := s.portWithout tag
      intake := { s.intake with phase := .executing seq slot (putBytes before offset bytes) unissued } }) rfl hmore
  · subst hnil
    rw [hexec]
    simp only [State.proceed, outstanding.mpr hwaits]
    rfl
  · exact (checked hlast).trans (congrArg _ ((validateInstall_eq (putBytes before offset bytes) seq slot _).1 v hv))
  · exact (checked hlast).trans
      (congrArg _ ((validateInstall_eq (putBytes before offset bytes) seq slot _).2.1 hnone hheld))
  · exact (checked hlast).trans
      (congrArg _ ((validateInstall_eq (putBytes before offset bytes) seq slot _).2.2 hnone hfree))
  · rw [exec_imageReadFault h, imageFault, withInstall]
    simp only [hphase]
    simp [State.answer, State.answeredAtIntake, refusal, installResults, Signalling.latch, Latches.set, Latches.get,
      ReportMask.raises, Port.ignore, OutcomeWriter.add, orNone, leBytes, State.portWithout]

end Sys2Proof.Machine

/-! PROOFS. FRAME dockets: the checks in their order (O20), and the resolution at once or from PLACE (O20, O21). -/

namespace Sys2Proof.Machine

/-! ### The checks (R114 to R116) -/

theorem firstFailure_true {ok : Bool} (h : ok = true) (r : Reason) (rest : List (Bool × Reason)) :
    firstFailure ((ok, r) :: rest) = firstFailure rest := if_pos h

theorem firstFailure_false {ok : Bool} (h : ¬ ok = true) (r : Reason) (rest : List (Bool × Reason)) :
    firstFailure ((ok, r) :: rest) = some r := if_neg h

theorem Rgb.all_toList {α : Type} (x : Rgb α) (p : α → Bool) :
    x.toList.all p = true ↔ ∀ c, p (x.get c) = true := by
  simp only [Rgb.toList, List.all_cons, List.all_nil, Bool.and_true, Bool.and_eq_true]
  constructor
  · rintro ⟨hr, hg, hb⟩ c
    cases c
    · exact hr
    · exact hg
    · exact hb
  · exact fun h => ⟨h .red, h .green, h .blue⟩

theorem align_check (g : Geometry) : ((g.inAddr.toList ++ g.outAddr.toList).all fun a => decide (a % 64 = 0)) = true
    ↔ ∀ c, g.inAddr.get c % 64 = 0 ∧ g.outAddr.get c % 64 = 0 := by
  simp only [List.all_append, Bool.and_eq_true, Rgb.all_toList, decide_eq_true_iff, forall_and]

theorem window_check (p : Params) (g : Geometry) :
    (g.inAddr.toList.all (inWindow p · g.inSize) && g.outAddr.toList.all (inWindow p · g.outSize)) = true
    ↔ ∀ c, p.low ≤ g.inAddr.get c ∧ g.inAddr.get c + g.inSize ≤ p.high
      ∧ p.low ≤ g.outAddr.get c ∧ g.outAddr.get c + g.outSize ≤ p.high := by
  simp only [Bool.and_eq_true, Rgb.all_toList, inWindow_iff, forall_and, and_assoc]

/-- Two extents that are not empty overlap where they share an address. -/
theorem overlaps_iff {a aSize b bSize : Nat} (ha : 0 < aSize) (hb : 0 < bSize) : (!overlaps a aSize b bSize) = true
    ↔ ∀ x, a ≤ x → x < a + aSize → b ≤ x → b + bSize ≤ x := by
  rw [Bool.not_eq_true', overlaps, decide_eq_false_iff_not]
  constructor
  · intro h x _ _ _
    omega
  · rintro h ⟨hab, hba⟩
    have := h (max a b) (by omega) (by omega) (by omega)
    omega

theorem apart_check {g : Geometry} (hin : 0 < g.inSize) (hout : 0 < g.outSize) :
    (g.outAddr.toList.all fun o => g.inAddr.toList.all fun i => !overlaps o g.outSize i g.inSize) = true
    ↔ ∀ (c c' : Channel) (a : Nat), g.outAddr.get c ≤ a → a < g.outAddr.get c + g.outSize →
      g.inAddr.get c' ≤ a → g.inAddr.get c' + g.inSize ≤ a := by
  simp only [Rgb.all_toList, overlaps_iff hout hin]

/-- R115: a frame of at least 256 pixels a side, decimated by at most 4, has planes. -/
theorem plane_sizes_pos {g : Geometry} (hw : 256 ≤ g.w) (hk : g.k = 1 ∨ g.k = 2 ∨ g.k = 4) :
    0 < g.inSize ∧ 0 < g.outSize := by
  have hwo : 0 < g.wo := by
    unfold Geometry.wo
    rcases hk with hk | hk | hk <;> rw [hk] <;> omega
  exact ⟨Nat.add_pos_right _ (by omega), Nat.add_pos_right _ (by omega)⟩

/-! ### The resolution taken whole (R44) -/

theorem resolve_error {s : State} {seq : Count} {f : FrameFields} {r : Reason} (h : resolution s seq f = .error r) :
    resolve seq f s = { s.answer (refusal seq 1 f.rush r []) with
      free := if f.source = 1 then s.free else s.free + 1 } := by
  unfold resolve
  rw [h]

theorem resolve_ok {s : State} {seq : Count} {f : FrameFields} {e : Entry} (h : resolution s seq f = .ok e) :
    resolve seq f s = { s with
      work := s.work ++ [e], intake := { s.intake with phase := .idle }
      free := if f.source = 1 then s.free else s.free + 1
      writer := { s.writer with waiting :=
        s.writer.waiting ++ (if s.win.cancel = none then [] else [.entry seq .cancelled]) } } := by
  unfold resolve
  rw [h]
  cases hcancel : s.win.cancel with
  | none => simp
  | some c => rfl

/-- The three ends of a FRAME docket's read (R114 to R117). -/
theorem frameReturned_refused {s : State} {f : FrameFields} {r : Reason}
    (h : firstFailure (frameChecks s.params f) = some r) (seq : Count) :
    frameReturned f seq s = s.answer (refusal seq 1 f.rush r []) := by
  unfold frameReturned
  rw [h]

theorem frameReturned_waits {s : State} {f : FrameFields} (h : firstFailure (frameChecks s.params f) = none)
    (hfull : 8 ≤ s.work.length) (seq : Count) :
    frameReturned f seq s = { s with intake := { s.intake with phase := .place seq f } } := by
  unfold frameReturned
  rw [h]
  exact if_neg (Nat.not_lt.mpr hfull)

theorem frameReturned_resolved {s : State} {f : FrameFields} (h : firstFailure (frameChecks s.params f) = none)
    (hplace : s.work.length < 8) (seq : Count) : frameReturned f seq s = resolve seq f s := by
  unfold frameReturned
  rw [h]
  exact if_pos hplace

/-- Settles O20. -/
theorem frameDocketHandled : Obligations.FrameDocketHandled := by
  refine ⟨fun p f => ?_, fun s tag seq bytes h hkind => ⟨fun r hr => ?_, fun hnone => ⟨fun hfull => ?_, fun hplace =>
    ⟨fun r hr => ?_, fun e he => ?_⟩⟩⟩⟩
  · intro g wo ho inSize outSize source geometry step pitch align window apart failing
    have hsource : decide (f.source ≤ 1) = true ↔ source := by
      rw [decide_eq_true_iff]
      show f.source ≤ 1 ↔ f.source = 0 ∨ f.source = 1
      omega
    have hgeometry : decide (g.w % 16 = 0 ∧ 256 ≤ g.w ∧ g.w ≤ 8192 ∧ g.h % 16 = 0 ∧ 256 ≤ g.h ∧ g.h ≤ 6144
        ∧ g.ox + g.w ≤ p.wf ∧ g.oy + g.h ≤ p.hf) = true ↔ geometry := decide_eq_true_iff
    have hstep : decide (g.k = 1 ∨ g.k = 2 ∨ g.k = 4) = true ↔ step := decide_eq_true_iff
    have hpitch : decide (g.inPitch % 64 = 0 ∧ 2 * g.w ≤ g.inPitch ∧ g.outPitch % 64 = 0 ∧ 2 * g.wo ≤ g.outPitch)
        = true ↔ pitch := decide_eq_true_iff
    have hwhite : decide (f.wl ≠ 0) = true ↔ f.wl ≠ 0 := decide_eq_true_iff
    have checks : failing = firstFailure (frameChecks p f) := rfl
    rw [checks]
    unfold frameChecks
    dsimp only
    refine ⟨fun h => ?_, fun h1 h => ?_, fun h1 h2 h => ?_, fun h1 h2 h3 h => ?_, fun h1 h2 h3 h4 h => ?_,
      fun h1 h2 h3 h4 h5 h => ?_, fun h1 h2 h3 h4 h5 h6 h => ?_, fun h1 h2 h3 h4 h5 h6 h7 h => ?_,
      fun h1 h2 h3 h4 h5 h6 h7 h => ?_⟩
    · exact firstFailure_false (mt hsource.mp h) _ _
    all_goals rw [firstFailure_true (hsource.mpr h1)]
    · exact firstFailure_false (mt hgeometry.mp h) _ _
    all_goals rw [firstFailure_true (hgeometry.mpr h2)]
    · exact firstFailure_false (mt hstep.mp h) _ _
    all_goals rw [firstFailure_true (hstep.mpr h3)]
    · exact firstFailure_false (mt hpitch.mp h) _ _
    all_goals rw [firstFailure_true (hpitch.mpr h4)]
    · exact firstFailure_false (mt (align_check g).mp h) _ _
    all_goals rw [firstFailure_true ((align_check g).mpr h5)]
    · exact firstFailure_false (mt hwhite.mp (not_not.mpr h)) _ _
    all_goals rw [firstFailure_true (hwhite.mpr h6)]
    · exact firstFailure_false (mt (window_check p g).mp h) _ _
    all_goals
      rw [firstFailure_true ((window_check p g).mpr h7)]
      obtain ⟨hin, hout⟩ := plane_sizes_pos h2.2.1 h3
    · exact firstFailure_false (mt (apart_check hin hout).mp h) _ _
    · exact firstFailure_true ((apart_check hin hout).mpr h) _ _
  all_goals rw [exec_frameDocket h hkind]
  · exact congrArg _ (frameReturned_refused (s := { s with port := s.portWithout tag }) hr seq)
  · exact congrArg _ (frameReturned_waits (s := { s with port := s.portWithout tag }) hnone hfull seq)
  all_goals rw [frameReturned_resolved (s := { s with port := s.portWithout tag }) hnone hplace]
  · exact congrArg _ (resolve_error (s := { s with port := s.portWithout tag }) hr)
  · exact congrArg _ (resolve_ok (s := { s with port := s.portWithout tag }) he)

/-- Settles O21. -/
theorem placedFrameResolved : Obligations.PlacedFrameResolved := by
  refine ⟨fun s seq f hphase hstate hplace => ?_, fun s hfull => ?_, fun s hnot => ?_⟩
  · have hresolved : exec .resolveFrame s = .next (resolve seq f s) := by
      have hcan : s.working = true ∧ s.work.length < Config.workDepth := ⟨(State.working_iff s).mpr hstate, hplace⟩
      show Host.Outcome.next (resolvePlaced s) = _
      unfold resolvePlaced
      rw [hphase]
      exact congrArg _ (if_pos hcan)
    exact ⟨fun r hr => hresolved.trans (congrArg _ (resolve_error hr)),
      fun e he => hresolved.trans (congrArg _ (resolve_ok he))⟩
  · refine congrArg Host.Outcome.next ?_
    show resolvePlaced s = s
    unfold resolvePlaced
    split
    · exact if_neg fun hcan => Nat.not_lt.mpr hfull hcan.2
    · rfl
  · refine congrArg Host.Outcome.next ?_
    show resolvePlaced s = s
    unfold resolvePlaced
    split
    · next hphase => exact absurd hphase (hnot _ _)
    · rfl

end Sys2Proof.Machine

/-! PROOFS. Steps, resets and time: the queue (O1, O2), the resets (O3 to O5) and the commands of the timebase and the
quiet timer (O7). -/

namespace Sys2Proof.Machine

/-! ### Steps and the queue (O1, O2) -/

/-- Settles O1. -/
theorem stepRunsFrontCommand : Obligations.StepRunsFrontCommand := by
  refine ⟨fun c rest s h => ?_, fun s h => ?_⟩ <;> rw [step, h]

/-- The effects keep the queue: each by the frames of the operations it is made of. -/
theorem effect_pending (c : Instr) (r : Request) (s : State) : (effect c r s).pending = s.pending := by
  have reading {k : Count → State → State} (hk : ∀ seq, (k seq s).pending = s.pending) :
      (whileReading k s).pending = s.pending :=
    whileReading_keeps (P := fun u => u.pending = s.pending) rfl fun seq _ => hk seq
  cases c with
  | powerOnReset | softReset | tick | eraYoungClear | sync | ack | clearFaults | errorClear | irqEnableUpdate
  | otherRegisterWrite | setupReadFault => rfl
  | lensMessage line => exact hearLine_pending line s
  | quietTimerExpiry =>
    rw [effect_quietTimerExpiry]
    split <;> rfl
  | temperatureSample t => exact thermalSample_pending _ s
  | cancel => exact cancelRequest_pending s
  | modeRun =>
    rw [effect_modeRun]
    split <;> rfl
  | modeReopen =>
    rw [effect_modeReopen]
    split <;> rfl
  | postWrite value =>
    rw [effect_postWrite]
    split
    · split
      · exact acceptPost_pending _ s
      · rfl
    · rfl
  | xbaseWrite value =>
    rw [effect_xbaseWrite]
    split
    · split <;> rfl
    · rfl
  | setupReadReturn tag bytes => exact setupReturned_pending bytes s
  | takeDocket =>
    rw [effect_takeDocket]
    split <;> rfl
  | markDocket =>
    rw [effect_markDocket]
    split <;> rfl
  | frameDocket tag bytes => exact reading fun seq => frameReturned_pending _ seq s
  | installDocket tag bytes => exact reading fun seq => installReturned_pending bytes seq s
  | dropDocket tag bytes => exact reading fun seq => dropReturned_pending bytes seq s
  | trimNudge tag bytes => exact reading fun seq => nudgeReturned_pending bytes seq s
  | trimSet tag bytes => exact reading fun seq => setReturned_pending bytes seq s
  | badTrimMode tag bytes => exact reading fun seq => badModeReturned_pending bytes seq s
  | optionsDocket tag bytes => exact reading fun seq => optionsReturned_pending bytes seq s
  | badKindDocket tag bytes =>
    exact reading (k := fun seq s => s.answer (refusal seq (docketKind bytes) false .badKind [])) fun _ => rfl
  | installValidation tag bytes => exact imageReturned_pending bytes r s
  | imageReadFault => exact imageFault_pending s
  | resolveFrame => exact resolvePlaced_pending s
  | pick => exact State.pick_pending s
  | bandReadReturn tag bytes => exact rowReturned_pending bytes r s
  | bandWriteAck => exact writeAcked_pending r s
  | bandBusError => exact bandFailed_pending s
  | memoryRequestTimeout => exact busError_pending r s
  | drainEnd => exact drainEnd_pending s
  | outcomeTakeUp =>
    rw [effect_outcomeTakeUp]
    split
    · exact takeUpAnswer_pending s
    · rfl
  | outcomeWriteAck => exact answerWriteAcked_pending r s
  | reportWriteTakeUp =>
    rw [effect_reportWriteTakeUp]
    split <;> rfl
  | reportWriteAck =>
    rw [effect_reportWriteAck]
    split <;> rfl
  | signallingUpdate =>
    exact withInHand_keeps (P := fun u => u.pending = s.pending) rfl fun x _ _ => signalAnswer_pending x s
  | exchangeFault => exact exchangeFault_pending s
  | cancelComplete =>
    rw [effect_cancelComplete]
    split <;> rfl

theorem exec_completes (c : Instr) (s : State) : ∃ t, exec c s = .next t := by
  cases c <;> exact ⟨_, rfl⟩

/-- Settles O2. -/
theorem everyCommandCompletes : Obligations.EveryCommandCompletes := by
  intro c s
  obtain ⟨t, ht⟩ := exec_completes c s
  refine ⟨t, ht, ?_⟩
  obtain rfl | ⟨p, rfl⟩ | ⟨r, p, rfl⟩ := exec_effect ht
  · rfl
  · rfl
  · exact effect_pending c r _

/-! ### The resets (O3 to O5) -/

/-- Settles O3. -/
theorem powerOnResetState : Obligations.PowerOnResetState := fun _ =>
  ⟨_, rfl, rfl, rfl, rfl, rfl, rfl, rfl, rfl, rfl, rfl, rfl, rfl, rfl, rfl, rfl, rfl, rfl, rfl, rfl, rfl, rfl, rfl⟩

/-- Settles O4. -/
theorem resetStateIsSafe : Obligations.ResetStateIsSafe := by
  have noEntry : ∀ e ∈ State.reset.work, EntryOk e := List.forall_mem_nil _
  have noLoading : LoadingOk State.reset := loadingOk_none (fun i hi => by
    cases List.eq_of_mem_replicate (List.mem_of_getElem? hi)) rfl
  have bands : BandsOk State.reset := (bandsOk_iff _).mpr ⟨listBandsOk_empty rfl, placeOk_of_phase nofun⟩
  obtain ⟨hgrouping, hconditions⟩ := signalsOk_reset
  exact ⟨tableOk_reset, noLoading, tapOk_reset, countsOk_zero rfl rfl rfl rfl, docketsOk_empty rfl rfl rfl,
    workOk_empty rfl rfl, bands, noEntry, hgrouping, hconditions⟩

/-- R150: a latch re-judged after all were cleared follows its condition alone. -/
theorem Signalling.softReset_eq (g : Signalling) : g.softReset = { g with
    flags := { done := false, rush := false, error := false, cancel := false
               fault := (g.live.quiet && g.mask.lensQuiet) || (g.live.warning && g.mask.heatWarn) || g.live.shutdown }
    irqEnable := false, firstError := none, counter := 0
    latches := { lensQuiet := g.live.quiet, lensChange := false, heatWarn := g.live.warning
                 heatShutdown := g.live.shutdown, memory := false } } := by
  cases hq : g.live.quiet <;> cases hw : g.live.warning <;> cases hs : g.live.shutdown <;>
    simp [Signalling.softReset, Signalling.rejudge, Live.get, Signalling.latch, Condition.latch, Latches.set,
      Latches.get, Latches.clear, Flags.clear, ReportMask.raises, hq, hw, hs]

/-- Settles O5. -/
theorem softResetState : Obligations.SoftResetState := by
  intro s
  refine ⟨_, rfl, rfl, rfl, rfl, rfl, List.length_map _, fun i x hx => ?_, rfl, rfl, rfl, rfl, rfl, rfl, rfl, ?_,
    s.sig.softReset_eq⟩
  · exact (List.getElem?_map ..).trans (by rw [hx]; rfl)
  · exact List.map_congr_left fun r _ => if_pos rfl

/-! ### Time (O7) -/

/-- Settles O7. -/
theorem timeCommands : Obligations.TimeCommands := by
  refine ⟨fun s => ?_, fun s h => ?_, fun s h => ?_, fun s => rfl, fun s hquiet hdue => ?_, fun s h => ?_⟩
  · have htick : s.tap.timebase + 1 = BitVec.ofNat 32 (s.tap.timebase.toNat + 1) := by
      apply BitVec.eq_of_toNat_eq
      simp [BitVec.toNat_add]
    exact htick ▸ rfl
  · have hold : decide (s.tap.timebase.toNat < Config.eraYoungEnd) = false := decide_eq_false (Nat.not_lt.mpr h)
    show Host.Outcome.next _ = _
    rw [hold, Bool.and_false]
  · have hyoung : decide (s.tap.timebase.toNat < Config.eraYoungEnd) = true := decide_eq_true h
    show Host.Outcome.next _ = _
    rw [hyoung, Bool.and_true]
  · have htrue : s.tap.quietDue = true := by simp [Tap.quietDue, hquiet, hdue]
    refine congrArg Host.Outcome.next ((if_pos htrue).trans ?_)
    rw [startQuiet, ReportWriter.ask, State.working_eq_decide]
    rfl
  · have hfalse : ¬ s.tap.quietDue = true := by
      simp only [Tap.quietDue, Bool.and_eq_true, Bool.not_eq_true', decide_eq_true_iff]
      rintro ⟨hquiet, hdue⟩
      rcases h with h | h
      · rw [hquiet] at h
        cases h
      · omega
    exact congrArg Host.Outcome.next (if_neg hfalse)

end Sys2Proof.Machine

/-! PROOFS. The control side (chapter 9) and what ends a request otherwise than by its reply: the strobes (O46), REOPEN
(O50), CANCEL and its completion (O51), exchange faults (O52), timeouts (O32) and old replies (O6). -/

namespace Sys2Proof.Machine

/-! ### The strobes of CTRL (O46) -/

/-- Five bits laid side by side, the last at bit 0. -/
theorem getLsbD_five_bits (a b c d e : Bool) {i : Nat} (h : i < 5) :
    (BitVec.ofBool a ++ BitVec.ofBool b ++ BitVec.ofBool c ++ BitVec.ofBool d ++ BitVec.ofBool e).getLsbD i
      = [e, d, c, b, a].getD i false := by
  simp only [BitVec.getLsbD_append, BitVec.getLsbD_ofBool]
  interval_cases i <;> simp

theorem Flags.getLsbD_bits (f : Flags) {i : Nat} (h : i < 5) :
    f.bits.getLsbD i = [f.done, f.rush, f.fault, f.error, f.cancel].getD i false := getLsbD_five_bits _ _ _ _ _ h

theorem Flags.getLsbD_ack_bits (f : Flags) (mask : BitVec 5) {i : Nat} (h : i < 5) :
    (f.ack mask).bits.getLsbD i = (f.bits.getLsbD i && !mask.getLsbD i) := by
  rw [Flags.getLsbD_bits _ h, Flags.getLsbD_bits _ h]
  interval_cases i <;> rfl

theorem irqOutput_iff (g : Signalling) : irqOutput g = true ↔ g.irqEnable = true
    ∧ (g.flags.done = true ∨ g.flags.rush = true ∨ g.flags.fault = true ∨ g.flags.error = true
      ∨ g.flags.cancel = true) := by
  simp only [irqOutput, Bool.and_eq_true, Bool.or_eq_true, or_assoc]

/-- Settles O46. -/
theorem ctrlStrobes : Obligations.CtrlStrobes :=
  ⟨fun _ mask => ⟨_, rfl, rfl, fun _ hi => Flags.getLsbD_ack_bits _ mask hi⟩,
    fun s => ⟨_, rfl, rfl, rfl, rfl, fun c => s.sig.clearFaults_latch_get c⟩,
    fun _ => rfl, fun _ _ => ⟨rfl, rfl⟩, fun s => irqOutput_iff s.sig⟩

/-! ### REOPEN (O50) -/

theorem OutcomeWriter.eq_free_iff (w : OutcomeWriter) :
    w = { inHand := none, waiting := [] } ↔ w.inHand.isNone = true ∧ w.waiting.isEmpty = true := by
  cases w
  simp

theorem State.quiescent_iff (s : State) : s.quiescent = true ↔ s.win.post = s.intake.taken
    ∧ s.intake.taken = s.intake.retired ∧ s.work = [] ∧ s.win.cancel = none
    ∧ s.writer = { inHand := none, waiting := [] } ∧ s.report.writing = false ∧ s.report.pending = false := by
  simp [State.quiescent, OutcomeWriter.eq_free_iff, and_assoc]

theorem exec_modeReopen (s : State) : exec .modeReopen s = .next (if s.win.state = .run ∧ s.quiescent then
    { s with win := { s.win with state := .setup, locked := none } } else s.error .reopenBusy) := rfl

/-- Settles O50. -/
theorem reopen : Obligations.Reopen := by
  intro s
  rw [exec_modeReopen]
  constructor
  · rintro ⟨hrun, hquiescent⟩
    rw [if_pos ⟨hrun, s.quiescent_iff.mpr hquiescent⟩]
  · intro hbusy
    rw [if_neg, State.error_eq_withError]
    rintro ⟨hrun, hquiescent⟩
    obtain ⟨hpost, htaken, hwork, hcancel, hwriter, hwriting, hpending⟩ := s.quiescent_iff.mp hquiescent
    simp [hrun, hpost, htaken, hwork, hcancel, hwriter, hwriting, hpending] at hbusy

/-! ### CANCEL and its completion (O51) -/

theorem State.cancelSettled_iff (s : State) (boundary : Count) : s.cancelSettled boundary = true ↔
    s.intake.taken = boundary ∧ s.intake.phase = .idle ∧ s.work = [] ∧ s.engine = .free
      ∧ s.writer = { inHand := none, waiting := [] } := by
  simp [State.cancelSettled, OutcomeWriter.eq_free_iff, and_assoc]

/-- R169: with everything below the boundary answered, the completion's report block write is asked for. -/
theorem State.cancelCheck_settled {s : State} {c : Cancel} (h : s.win.cancel = some c) (hstage : c.stage = .working)
    (hsettled : s.cancelSettled c.boundary = true) : s.cancelCheck = { s with
      win := { s.win with cancel := some { c with stage := .reportAsked } }, report := s.report.ask s.working } := by
  unfold State.cancelCheck
  rw [h]
  exact if_pos ⟨hstage, hsettled⟩

theorem State.cancelCheck_open {s : State} {c : Cancel} (h : s.win.cancel = some c)
    (hopen : ¬ (c.stage = .working ∧ s.cancelSettled c.boundary = true)) : s.cancelCheck = s := by
  unfold State.cancelCheck
  rw [h]
  exact if_neg hopen

theorem ReportWriter.ask_true (r : ReportWriter) : r.ask true = { r with pending := true } := by
  simp [ReportWriter.ask]

theorem exec_cancel (s : State) : exec .cancel s = .next (if s.working then
    (if s.win.cancel.isSome then s else acceptCancel s) else s.error .cancelState) := rfl

theorem cancelAnswers_eq (work : List Entry) : cancelAnswers work
    = (work.filter fun e => e.state ≠ .running).map fun e => .entry e.seq .cancelled := by
  refine congrArg (List.map _) (List.filter_congr fun e _ => ?_)
  cases e.state <;> rfl

/-- R169: a cancel accepted with nothing below the boundary asks at once for the completion's write. -/
theorem acceptCancel_settled {s : State} (hw : s.working = true) (h : s.cancelSettled s.win.post = true) :
    acceptCancel s = { s with
      win := { s.win with cancel := some { boundary := s.win.post, stage := .reportAsked } }
      report := { s.report with pending := true } } := by
  obtain ⟨-, -, hwork, -, -⟩ := (s.cancelSettled_iff _).mp h
  have hnone : s.writer.add (cancelAnswers s.work) = s.writer := by rw [hwork]; exact s.writer.add_nil
  rw [acceptCancel, hnone, State.cancelCheck_settled rfl rfl h]
  show ({ s with win := _, report := s.report.ask s.working } : State) = _
  rw [hw, ReportWriter.ask_true]

theorem acceptCancel_open {s : State} (h : ¬ s.cancelSettled s.win.post = true) : acceptCancel s = { s with
      win := { s.win with cancel := some { boundary := s.win.post, stage := .working } }
      writer := s.writer.add (cancelAnswers s.work) } := by
  refine State.cancelCheck_open rfl fun ⟨_, hsettled⟩ => h ?_
  obtain ⟨htaken, hphase, hwork, hengine, hwriter⟩ := (State.cancelSettled_iff _ _).mp hsettled
  have hnone : s.writer.add (cancelAnswers s.work) = s.writer := by
    rw [show s.work = [] from hwork]; exact s.writer.add_nil
  exact (s.cancelSettled_iff _).mpr ⟨htaken, hphase, hwork, hengine, hnone ▸ hwriter⟩

theorem exec_cancelComplete (s : State) : exec .cancelComplete s = .next (
    if s.win.cancel.map Cancel.stage = some .reported then
      { s with
        win := { s.win with cancel := none }
        sig := { s.sig with flags := { s.sig.flags with cancel := true } } }
    else s) := rfl

/-- Settles O51. -/
theorem cancelCommands : Obligations.CancelCommands := by
  refine ⟨fun s h => ?_, fun s hw hcancel => ?_, fun s hw hcancel => ?_, fun s c hc hstage => ?_, fun s h => ?_⟩
  · rw [exec_cancel, State.working_of_idle h, if_neg (by decide), State.error_eq_withError]
  · rw [exec_cancel, if_pos (s.working_iff.mpr hw), if_pos (Option.isSome_iff_ne_none.mpr hcancel)]
  · have hworking := s.working_iff.mpr hw
    rw [exec_cancel, if_pos hworking, hcancel, if_neg (by decide)]
    refine ⟨fun hidle => ?_, fun hbusy => ?_⟩
    · rw [acceptCancel_settled hworking ((s.cancelSettled_iff _).mpr hidle)]
    · rw [acceptCancel_open (hbusy ∘ (s.cancelSettled_iff _).mp), cancelAnswers_eq]
      rfl
  · rw [exec_cancelComplete, if_pos (by rw [hc, ← hstage]; rfl)]
  · rw [exec_cancelComplete, if_neg]
    intro hreported
    obtain ⟨c, hc, hstage⟩ := Option.map_eq_some_iff.mp hreported
    exact h c hc hstage

/-! ### Exchange faults (O52) -/

theorem exec_exchangeFault (s : State) (tag : Nat) :
    exec (.exchangeFault tag) s = .next (onReply tag (fun r => r.use.isExchange) (fun _ => exchangeFault) s) := rfl

theorem exchangeFault_working {s : State} (h : s.working = true) : exchangeFault s = s.enterHalted := if_pos h

theorem exchangeFault_idle {s : State} (h : s.working = false) : exchangeFault s = s := by
  rw [exchangeFault, h, if_neg (by decide)]

/-- R126: what entry to HALTED leaves, with the error as R151 words it. -/
theorem State.enterHalted_eq (s : State) : s.enterHalted = { s.withError .exchangeFault with
    win := { s.win with state := .halted, cancel := none }
    intake := { s.intake with phase := .idle, install := false }
    slots := dropLoading s.slots
    writer := { inHand := none, waiting := [] }
    report := { s.report with writing := false, pending := false }
    work := [], engine := .free
    port := { s.port with reqs := s.port.reqs.map fun q => { q with live := false } } } := by
  rw [← State.error_eq_withError]
  rfl

/-- Settles O52. -/
theorem exchangeFaultTaken : Obligations.ExchangeFaultTaken := by
  intro s tag r hfind hexchange
  rw [exec_exchangeFault]
  refine ⟨fun hlive hw => ⟨_, rfl, ?_⟩, fun h => ?_⟩
  · have hworking : ({ s with port := s.portWithout tag } : State).working = true := s.working_iff.mpr hw
    rw [onReply_live hfind hexchange hlive, exchangeFault_working hworking]
    refine ⟨List.length_map _, fun i x hx => ?_, State.enterHalted_eq _⟩
    exact (List.getElem?_map ..).trans (congrArg (Option.map _) hx)
  · cases hlive : r.live
    · rw [onReply_dead hfind hexchange hlive]
    · have hidle : ({ s with port := s.portWithout tag } : State).working = false :=
        State.working_of_idle (h.resolve_left (by simp [hlive]))
      rw [onReply_live hfind hexchange hlive, exchangeFault_idle hidle]

/-! ### Timeouts (O32) -/

/-- Two replies about the same request with the same effect are the same. -/
theorem onReply_congr {tag : Nat} {s : State} {r : Request} (h : s.port.find tag = some r)
    {fits fits' : Request → Bool} (hf : fits r = true) (hf' : fits' r = true) {k k' : Request → State → State}
    (hk : ∀ u, k r u = k' r u) : onReply tag fits k s = onReply tag fits' k' s := by
  unfold onReply
  rw [h]
  simp only [hf, hf', hk]

theorem exec_memoryRequestTimeout (s : State) (tag : Nat) :
    exec (.memoryRequestTimeout tag) s = .next (onReply tag (fun _ => true) busError s) := rfl

/-- Settles O32. -/
theorem timeoutIsBusError : Obligations.TimeoutIsBusError := by
  refine ⟨fun s tag r hfind => ?_, fun s tag ⟨addr, hfind⟩ hw => ?_, fun s tag hnone => ?_⟩
  · rw [exec_memoryRequestTimeout]
    have same {fits : Request → Bool} {k : Request → State → State} (hfits : fits r = true)
        (hk : ∀ u, busError r u = k r u) :
        Host.Outcome.next (φ := Fault) (ρ := Refusal) (onReply tag (fun _ => true) busError s)
          = .next (onReply tag fits k s) :=
      congrArg Host.Outcome.next (onReply_congr hfind rfl hfits hk)
    rcases r with ⟨tag', use, access, live⟩
    cases use with
    | setupBlock | docket | image | answer | report => exact same rfl fun _ => rfl
    | bandRead | bandWrite => exact same rfl fun _ => rfl
  · have hworking : ({ s with port := s.portWithout tag } : State).working = true := s.working_iff.mpr hw
    refine ⟨_, rfl, ?_⟩
    rw [onReply_live hfind rfl rfl]
    show (exchangeFault _).win.state = _ ∧ (exchangeFault _).work = _ ∧ (exchangeFault _).engine = _
      ∧ (exchangeFault _).sig.flags.error = _ ∧ (exchangeFault _).intake.phase = _
    rw [exchangeFault_working hworking]
    exact ⟨rfl, rfl, rfl, rfl, rfl⟩
  · rw [exec_memoryRequestTimeout, onReply_none hnone]

/-! ### Old replies (O6) -/

/-- Only the port differs, and it holds no further request. -/
def State.OnlyEnds (s u : State) : Prop := u = { s with port := u.port } ∧ ∀ r ∈ u.port.reqs, r ∈ s.port.reqs

/-- With no request live a reply at most ends its request. -/
theorem onReply_onlyEnds {s : State} (h : ∀ r ∈ s.port.reqs, r.live = false) (tag : Nat) (fits : Request → Bool)
    (k : Request → State → State) : s.OnlyEnds (onReply tag fits k s) := by
  obtain he | ⟨r, hfind, -, ⟨-, he⟩ | ⟨hlive, -⟩⟩ := onReply_cases tag fits k s
  · rw [he]
    exact ⟨rfl, fun _ hr => hr⟩
  · rw [he]
    exact ⟨rfl, fun _ hr => (Port.mem_finish.mp hr).1⟩
  · rw [h r (Port.find_some hfind).2] at hlive
    cases hlive

theorem Port.ignore_all_dead (p : Port) : ∀ r ∈ (p.ignore fun _ => true).reqs, r.live = false := by
  intro r hr
  obtain ⟨q, -, rfl⟩ := List.mem_map.mp hr
  rfl

/-- Whatever entered HALTED with an exchange fault left no request live. -/
theorem exec_exchangeFault_dead {s t : State} {tag : Nat} (h : exec (.exchangeFault tag) s = .next t)
    (hbefore : s.win.state ≠ .halted) (hafter : t.win.state = .halted) : ∀ r ∈ t.port.reqs, r.live = false := by
  obtain rfl := Host.Outcome.next.inj h
  obtain he | ⟨r, -, -, ⟨-, he⟩ | ⟨-, he⟩⟩ := onReply_cases tag (fun r => r.use.isExchange) (fun _ => exchangeFault) s
    <;> rw [he] at hafter ⊢
  · exact absurd hafter hbefore
  · exact absurd hafter hbefore
  · cases hw : s.working
    · rw [exchangeFault_idle (s := { s with port := s.port.finish tag }) hw] at hafter
      exact absurd hafter hbefore
    · rw [exchangeFault_working (s := { s with port := s.port.finish tag }) hw]
      exact Port.ignore_all_dead _

/-- Settles O6. -/
theorem oldRepliesChangeNothing : Obligations.OldRepliesChangeNothing := by
  intro s t c tag hreset hreply
  have dead : ∀ r ∈ t.port.reqs, r.live = false := by
    obtain hsoft | ⟨f, hfault, hbefore, hafter⟩ := hreset
    · obtain rfl := Host.Outcome.next.inj hsoft
      exact Port.ignore_all_dead _
    · exact exec_exchangeFault_dead hfault hbefore hafter
  have ends {tag : Nat} {fits : Request → Bool} {k : Request → State → State} :
      ∃ u, (.next (onReply tag fits k t) : Host.Outcome State Fault Refusal) = .next u
        ∧ u = { t with port := u.port } ∧ ∀ r ∈ u.port.reqs, r ∈ t.port.reqs :=
    ⟨_, rfl, onReply_onlyEnds dead tag fits k⟩
  cases c with
  | setupReadReturn | setupReadFault | frameDocket | installDocket | dropDocket | trimNudge | trimSet | badTrimMode
  | optionsDocket | badKindDocket | installValidation | imageReadFault | bandReadReturn | bandWriteAck | bandBusError
  | memoryRequestTimeout | outcomeWriteAck | reportWriteAck | exchangeFault => exact ends
  | _ => exact absurd hreply (Option.some_ne_none tag).symm

end Sys2Proof.Machine

/-! PROOFS. The RUN request and RUN entry (O49), the operating states (O59) and the first-error code (O60). -/

namespace Sys2Proof.Machine

/-! ### RUN entry (O49) -/

/-- R40, log entry 19: whether the quiet condition starts with the new Q. -/
def quietStarts (b : SetupBlock) (s : State) : Bool :=
  !s.tap.quiet && decide (b.quietMs * 1000 ≤ s.tap.quietTimer)

/-- R165 step 1, no report block write being asked for outside RUN and HOT. -/
theorem loadParameters_eq (b : SetupBlock) {s : State} (hw : s.working = false) : loadParameters b s = { s with
    win := { s.win with locked := some b.params }
    tap := { s.tap with
      latency := b.latency, quietMs := b.quietMs, quiet := s.tap.quiet || quietStarts b s }
    sig := { s.sig with
      live := { s.sig.live with quiet := s.sig.live.quiet || quietStarts b s }
      latches := { s.sig.latches with lensQuiet := s.sig.latches.lensQuiet || quietStarts b s }
      flags := { s.sig.flags with fault := s.sig.flags.fault
        || (quietStarts b s && !s.sig.latches.lensQuiet && s.sig.mask.lensQuiet) } } } := by
  cases hstarts : quietStarts b s
  · refine (if_neg (Bool.not_eq_true _ ▸ hstarts)).trans ?_
    simp only [Bool.or_false, Bool.false_and]
  · refine (if_pos hstarts).trans ?_
    have hask : s.report.ask s.working = s.report := by rw [hw, ReportWriter.ask, Bool.or_false]
    simp only [Bool.or_true, Bool.true_and]
    exact congrArg (fun r => { startQuiet { s with
      win := { s.win with locked := some b.params }
      tap := { s.tap with latency := b.latency, quietMs := b.quietMs } } with report := r }) hask

/-- A counter at 0 announces nothing at a change of N. -/
theorem Signalling.setGrouping_of_zero {g : Signalling} (h : g.counter = 0) (n : Nat) :
    g.setGrouping n = { g with grouping := n } := if_neg (by omega)

theorem loadOptions_askReport (b : SetupBlock) (s : State) : (loadOptions b s).askReport = { s with
    win := { s.win with post := 0, setupRead := false, state := if s.thermal.shutdown then .hot else .run }
    intake := { s.intake with taken := 0, retired := 0, map := 0, phase := .idle }
    sig := { s.sig with
      counter := 0, grouping := b.grouping
      missing := if b.missing = 1 then .refuse else .pass, stale := if b.stale = 1 then .pass else .hold
      mask := { lensQuiet := b.mask.testBit 0, lensChange := b.mask.testBit 1, heatWarn := b.mask.testBit 2 } }
    report := { s.report with pending := true } } := by
  have hworking : (loadOptions b s).working = true := by
    rw [State.working_iff]
    show (if s.thermal.shutdown then OpState.hot else .run) = .run
      ∨ (if s.thermal.shutdown then OpState.hot else .run) = .hot
    cases s.thermal.shutdown
    · exact .inl rfl
    · exact .inr rfl
  have hgrouping := Signalling.setGrouping_of_zero (g := { s.sig with counter := 0 }) rfl b.grouping
  rw [State.askReport, hworking, ReportWriter.ask_true, loadOptions, hgrouping]
  rfl

theorem exec_modeRun (s : State) : exec .modeRun s = .next (if s.win.state = .setup ∧ s.win.setupRead = false then
    { s with
      win := { s.win with setupRead := true }
      port := s.port.issueAll [(.setupBlock, .read s.win.xbase.toNat Config.setupReadBytes)] }
  else s.error .modeState) := rfl

/-- The setup block's read returned to the state that awaits it. -/
theorem exec_setupReadReturn {s : State} {tag : Nat} {bytes : List Byte} (h : s.awaitsRead tag .setupBlock 22)
    (hlength : bytes.length = 22) :
    exec (.setupReadReturn tag bytes) s = .next (setupReturned bytes { s with port := s.portWithout tag }) := by
  obtain ⟨addr, hfind⟩ := h
  exact congrArg Host.Outcome.next (onReply_live hfind (by rw [hlength]; rfl) rfl _)

theorem setupReturned_setup {s : State} (h : s.win.state = .setup) (bytes : List Byte) : setupReturned bytes s =
    if (setupFields bytes).valid s.win.xbase then enterRun (setupFields bytes) s
    else State.error { s with win := { s.win with setupRead := false } } .setupInvalid := if_pos h

/-- Settles O49. -/
theorem runEntry : Obligations.RunEntry := by
  refine ⟨fun b xbase => b.valid_iff xbase, fun s hsetup hread => ?_, fun s h => ?_, fun s tag h => ?_,
    fun s tag bytes hawaits hlength hsetup => ⟨fun hinvalid => ?_, fun hvalid => ?_⟩⟩
  · rw [exec_modeRun, if_pos ⟨hsetup, hread⟩]
    rfl
  · rw [exec_modeRun, if_neg, State.error_eq_withError]
    rintro ⟨hsetup, hread⟩
    exact h.elim (· hsetup) fun hread' => Bool.false_ne_true (hread.symm.trans hread')
  · obtain ⟨addr, hfind⟩ := h
    refine (congrArg Host.Outcome.next (onReply_live hfind rfl rfl _)).trans ?_
    exact congrArg Host.Outcome.next (State.error_eq_withError _ _)
  · rw [exec_setupReadReturn hawaits hlength, setupReturned_setup (by exact hsetup)]
    exact congrArg Host.Outcome.next ((if_neg (Bool.not_eq_true _ ▸ hinvalid)).trans (State.error_eq_withError _ _))
  · have hidle : ({ s with port := s.portWithout tag } : State).working = false := State.working_of_idle (.inl hsetup)
    rw [exec_setupReadReturn hawaits hlength, setupReturned_setup (by exact hsetup)]
    refine congrArg Host.Outcome.next ((if_pos hvalid).trans ?_)
    rw [enterRun, loadParameters_eq _ hidle, loadOptions_askReport]
    rfl

/-! ### The operating states (O59) -/

theorem setupReturned_state (bytes : List Byte) (s : State) : (setupReturned bytes s).win.state = s.win.state
    ∨ s.win.state = .setup ∧ (setupReturned bytes s).win.state = if s.thermal.shutdown then .hot else .run := by
  unfold setupReturned
  split
  · split
    · refine .inr ⟨‹_›, ?_⟩
      rw [enterRun, loadOptions_askReport]
      show (if (loadParameters _ s).thermal.shutdown then OpState.hot else .run) = _
      rw [loadParameters_thermal]
    · exact .inl rfl
  · exact .inl rfl

theorem exchangeFault_state (s : State) : (exchangeFault s).win.state = s.win.state
    ∨ (s.win.state = .run ∨ s.win.state = .hot) ∧ (exchangeFault s).win.state = .halted := by
  cases hw : s.working
  · rw [exchangeFault_idle hw]
    exact .inl rfl
  · rw [exchangeFault_working hw]
    exact .inr ⟨s.working_iff.mp hw, rfl⟩

theorem busError_state (r : Request) (s : State) : (busError r s).win.state = s.win.state
    ∨ (s.win.state = .run ∨ s.win.state = .hot) ∧ (busError r s).win.state = .halted := by
  rcases r with ⟨tag, use, access, live⟩
  cases use with
  | setupBlock => exact .inl rfl
  | docket | answer | report => exact exchangeFault_state s
  | image => exact .inl (by show (imageFault s).win.state = _; rw [imageFault_win])
  | bandRead | bandWrite => exact .inl (by show (bandFailed s).win.state = _; rw [bandFailed_win])

theorem thermalSample_state (t : Int) (s : State) : (thermalSample t s).win.state = s.win.state
    ∨ (s.win.state = .run ∧ (thermalSample t s).win.state = .hot
        ∧ s.thermal.shutdown = false ∧ (thermalSample t s).thermal.shutdown = true)
    ∨ (s.win.state = .hot ∧ (thermalSample t s).win.state = .run
        ∧ s.thermal.shutdown = true ∧ (thermalSample t s).thermal.shutdown = false) := by
  have hstate := congrArg Window.state (thermalSample_win t s)
  dsimp only at hstate
  split at hstate
  · next hstart =>
    simp only [Bool.and_eq_true, Bool.not_eq_true', beq_iff_eq] at hstart
    obtain ⟨⟨hbefore, hafter⟩, hrun⟩ := hstart
    exact .inr (.inl ⟨hrun, hstate, hbefore, hafter⟩)
  · split at hstate
    · next hend =>
      simp only [Bool.and_eq_true, Bool.not_eq_true', beq_iff_eq] at hend
      obtain ⟨⟨hbefore, hafter⟩, hhot⟩ := hend
      exact .inr (.inr ⟨hhot, hstate, hbefore, hafter⟩)
    · exact .inl hstate

theorem State.cancelCheck_state (s : State) : s.cancelCheck.win.state = s.win.state := by
  obtain h | ⟨c, -, -, h⟩ := s.cancelCheck_win <;> rw [h]

/-- Section 9.1: the commands that can change the operating state. -/
def mayChangeState : Instr → Bool
  | .setupReadReturn _ _ | .temperatureSample _ | .modeReopen | .exchangeFault _ | .memoryRequestTimeout _
  | .softReset | .powerOnReset => true
  | _ => false

theorem effect_state {c : Instr} (hc : mayChangeState c = false) (r : Request) (s : State) :
    (effect c r s).win.state = s.win.state := by
  have reading {k : Count → State → State} (hk : ∀ seq, (k seq s).win = s.win) :
      (whileReading k s).win.state = s.win.state :=
    whileReading_keeps (P := fun u => u.win.state = s.win.state) rfl fun seq _ => congrArg Window.state (hk seq)
  cases c with
  | powerOnReset | softReset | temperatureSample | modeReopen | setupReadReturn | memoryRequestTimeout
  | exchangeFault => cases hc
  | tick | eraYoungClear | sync | ack | clearFaults | errorClear | irqEnableUpdate | otherRegisterWrite
  | setupReadFault => rfl
  | lensMessage line => exact congrArg Window.state (hearLine_win line s)
  | quietTimerExpiry =>
    rw [effect_quietTimerExpiry]
    split <;> rfl
  | cancel =>
    show (cancelRequest s).win.state = _
    unfold cancelRequest
    split
    · split
      · rfl
      · exact State.cancelCheck_state _
    · rfl
  | modeRun =>
    rw [effect_modeRun]
    split <;> rfl
  | postWrite value =>
    rw [effect_postWrite]
    split
    · split
      · exact State.cancelCheck_state _
      · rfl
    · rfl
  | xbaseWrite value =>
    rw [effect_xbaseWrite]
    split
    · split <;> rfl
    · rfl
  | takeDocket =>
    rw [effect_takeDocket]
    split <;> rfl
  | markDocket =>
    rw [effect_markDocket]
    split <;> rfl
  | frameDocket tag bytes => exact reading fun seq => frameReturned_win _ seq s
  | installDocket tag bytes => exact reading fun seq => installReturned_win bytes seq s
  | dropDocket tag bytes => exact reading fun seq => dropReturned_win bytes seq s
  | trimNudge tag bytes => exact reading fun seq => nudgeReturned_win bytes seq s
  | trimSet tag bytes => exact reading fun seq => setReturned_win bytes seq s
  | badTrimMode tag bytes => exact reading fun seq => badModeReturned_win bytes seq s
  | optionsDocket tag bytes => exact reading fun seq => optionsReturned_win bytes seq s
  | badKindDocket tag bytes =>
    exact reading (k := fun seq s => s.answer (refusal seq (docketKind bytes) false .badKind [])) fun _ => rfl
  | installValidation tag bytes => exact congrArg Window.state (imageReturned_win bytes r s)
  | imageReadFault => exact congrArg Window.state (imageFault_win s)
  | resolveFrame => exact congrArg Window.state (resolvePlaced_win s)
  | pick => exact congrArg Window.state (State.pick_win s)
  | bandReadReturn tag bytes => exact congrArg Window.state (rowReturned_win bytes r s)
  | bandWriteAck => exact congrArg Window.state (writeAcked_win r s)
  | bandBusError => exact congrArg Window.state (bandFailed_win s)
  | drainEnd => exact congrArg Window.state (drainEnd_win s)
  | outcomeTakeUp =>
    rw [effect_outcomeTakeUp]
    split
    · exact congrArg Window.state (takeUpAnswer_win s)
    · rfl
  | outcomeWriteAck => exact congrArg Window.state (answerWriteAcked_win r s)
  | reportWriteTakeUp =>
    rw [effect_reportWriteTakeUp]
    split <;> rfl
  | reportWriteAck =>
    rw [effect_reportWriteAck]
    split <;> rfl
  | signallingUpdate =>
    exact withInHand_keeps (P := fun u => u.win.state = s.win.state) rfl fun _ _ _ => State.cancelCheck_state _
  | cancelComplete =>
    rw [effect_cancelComplete]
    split <;> rfl

/-- Settles O59. -/
theorem operatingStates : Obligations.OperatingStates := by
  intro c s t h hchanged
  obtain rfl | ⟨p, rfl⟩ | ⟨r, p, rfl⟩ := exec_effect h
  · exact absurd rfl hchanged
  · exact absurd rfl hchanged
  cases hc : mayChangeState c
  · exact absurd (effect_state hc r _) hchanged
  cases c with
  | setupReadReturn tag bytes =>
    obtain ⟨hsetup, hafter⟩ := (setupReturned_state bytes { s with port := p }).resolve_left hchanged
    exact .inl ⟨hsetup, ⟨tag, bytes, rfl⟩, hafter⟩
  | temperatureSample milli =>
    obtain ⟨hrun, hhot, hbefore, hafter⟩ | ⟨hhot, hrun, hbefore, hafter⟩ :=
      (thermalSample_state (wholeDegrees milli) { s with port := p }).resolve_left hchanged
    · exact .inr (.inl ⟨hrun, hhot, ⟨milli, rfl⟩, hbefore, hafter⟩)
    · exact .inr (.inr (.inl ⟨hhot, hrun, ⟨milli, rfl⟩, hbefore, hafter⟩))
  | modeReopen =>
    rw [effect_modeReopen] at hchanged ⊢
    split at hchanged
    · next hopen =>
      rw [if_pos hopen]
      exact .inr (.inr (.inr (.inl ⟨hopen.1, rfl, rfl⟩)))
    · exact absurd rfl hchanged
  | exchangeFault tag =>
    obtain ⟨hworking, hhalted⟩ := (exchangeFault_state { s with port := p }).resolve_left hchanged
    exact .inr (.inr (.inr (.inr (.inl ⟨hworking, hhalted, tag, .inl rfl⟩))))
  | memoryRequestTimeout tag =>
    obtain ⟨hworking, hhalted⟩ := (busError_state r { s with port := p }).resolve_left hchanged
    exact .inr (.inr (.inr (.inr (.inl ⟨hworking, hhalted, tag, .inr rfl⟩))))
  | softReset => exact .inr (.inr (.inr (.inr (.inr ⟨rfl, .inl rfl⟩))))
  | powerOnReset => exact .inr (.inr (.inr (.inr (.inr ⟨rfl, .inr rfl⟩))))
  | _ => cases hc

/-! ### The first-error code (O60) -/

/-- R151: the first-error code stays, or is set from 0 by an error, which leaves ERROR set. -/
def Signalling.FirstErrorMoves (g g' : Signalling) : Prop :=
  g'.firstError = g.firstError ∨ (∃ e, g'.firstError = g.firstError.or (some e)) ∧ g'.flags.error = true

theorem Signalling.firstErrorMoves_of_eq {g g' : Signalling} (h : g' = g) : g.FirstErrorMoves g' := .inl (by rw [h])

theorem State.error_moves {s u : State} (h : u.sig = s.sig) (e : ErrorCode) :
    s.sig.FirstErrorMoves (u.error e).sig :=
  .inr ⟨⟨e, congrArg (fun g => g.firstError.or (some e)) h⟩, rfl⟩

theorem Signalling.idleFlush_firstError (g : Signalling) (b : Bool) : (g.idleFlush b).firstError = g.firstError := by
  unfold Signalling.idleFlush
  split <;> rfl

theorem Signalling.update_firstError (g : Signalling) (rush : Bool) (o : DocketOutcome) (b : Bool) :
    (g.update rush o b).firstError = g.firstError := by
  unfold Signalling.update
  rw [Signalling.idleFlush_firstError]
  split
  · rfl
  · split
    · unfold Signalling.count
      split <;> rfl
    · rfl

theorem Signalling.setGrouping_firstError (g : Signalling) (n : Nat) :
    (g.setGrouping n).firstError = g.firstError := by
  unfold Signalling.setGrouping
  split <;> rfl

theorem Signalling.follow_firstError (g : Signalling) (c : Condition) (before after : Bool) :
    (g.follow c before after).firstError = g.firstError := by
  obtain ⟨-, h⟩ | ⟨-, h⟩ | ⟨-, h⟩ := g.follow_cases c before after <;> rw [h] <;> rfl

theorem applyOptions_firstError (bytes : List Byte) (g : Signalling) :
    (applyOptions bytes g).firstError = g.firstError := by
  rw [applyOptions_eq]
  split
  · exact Signalling.setGrouping_firstError g _
  · rfl

theorem endQuiet_firstError (s : State) : (endQuiet s).sig.firstError = s.sig.firstError := by
  unfold endQuiet
  split <;> rfl

theorem track_firstError (m : Message) (s : State) : (track m s).sig.firstError = s.sig.firstError := by
  unfold track
  split <;> rfl

theorem closeRun_firstError (run : Run) (s : State) : (closeRun run s).sig.firstError = s.sig.firstError := by
  unfold closeRun
  split
  · rfl
  · unfold hearMessage
    dsimp only
    split
    · exact endQuiet_firstError s
    · split
      · exact (track_firstError _ _).trans (endQuiet_firstError s)
      · exact endQuiet_firstError s

theorem hearEvent_firstError (s : State) (e : LineEvent) : (hearEvent s e).sig.firstError = s.sig.firstError := by
  obtain ⟨-, h⟩ | ⟨run, -, -, -, h⟩ := hearEvent_cases s e <;> rw [h]
  exact closeRun_firstError _ _

theorem enterRun_firstError (b : SetupBlock) {s : State} (hw : s.working = false) :
    (enterRun b s).sig.firstError = s.sig.firstError := by
  rw [enterRun, loadOptions_askReport, loadParameters_eq b hw]

theorem setupReturned_firstError (bytes : List Byte) (s : State) :
    s.sig.FirstErrorMoves (setupReturned bytes s).sig := by
  unfold setupReturned
  split
  · split
    · exact .inl (enterRun_firstError _ (State.working_of_idle (.inl ‹_›)))
    · exact State.error_moves rfl _
  · exact .inl rfl

theorem exchangeFault_firstError (s : State) : s.sig.FirstErrorMoves (exchangeFault s).sig := by
  cases hw : s.working
  · rw [exchangeFault_idle hw]
    exact .inl rfl
  · rw [exchangeFault_working hw]
    exact State.error_moves rfl .exchangeFault

theorem imageFault_firstError (s : State) : (imageFault s).sig.firstError = s.sig.firstError := by
  unfold imageFault withInstall
  split <;> rfl

theorem bandFailed_firstError (s : State) : (bandFailed s).sig.firstError = s.sig.firstError := by
  unfold bandFailed
  split
  · simp [Signalling.latch]
  · rfl

theorem busError_firstError (r : Request) (s : State) : s.sig.FirstErrorMoves (busError r s).sig := by
  rcases r with ⟨tag, use, access, live⟩
  cases use with
  | setupBlock => exact State.error_moves rfl .setupReadFault
  | docket | answer | report => exact exchangeFault_firstError s
  | image => exact .inl (imageFault_firstError s)
  | bandRead | bandWrite => exact .inl (bandFailed_firstError s)

theorem cancelRequest_firstError (s : State) : s.sig.FirstErrorMoves (cancelRequest s).sig := by
  unfold cancelRequest
  split
  · split
    · exact .inl rfl
    · exact Signalling.firstErrorMoves_of_eq (acceptCancel_sig s)
  · exact State.error_moves rfl _

theorem optionsReturned_firstError (bytes : List Byte) (seq : Count) (s : State) :
    (optionsReturned bytes seq s).sig.firstError = s.sig.firstError := by
  unfold optionsReturned
  split
  · exact applyOptions_firstError bytes _
  · rw [State.answer_sig]
    dsimp only
    split
    · exact Signalling.setGrouping_firstError _ _
    · rfl

/-- The commands that clear the first-error code (R151, R171, R172). -/
def clearsFirstError : Instr → Bool
  | .errorClear | .softReset | .powerOnReset => true
  | _ => false

theorem effect_firstError {c : Instr} (hc : clearsFirstError c = false) (r : Request) (s : State) :
    s.sig.FirstErrorMoves (effect c r s).sig := by
  have same {u : State} (h : u.sig = s.sig) : s.sig.FirstErrorMoves u.sig := Signalling.firstErrorMoves_of_eq h
  have reading {k : Count → State → State} (hk : ∀ seq, (k seq s).sig.firstError = s.sig.firstError) :
      s.sig.FirstErrorMoves (whileReading k s).sig :=
    .inl (whileReading_keeps (P := fun u => u.sig.firstError = s.sig.firstError) rfl fun seq _ => hk seq)
  have kept {k : Count → State → State} (hk : ∀ seq, (k seq s).sig = s.sig) :
      s.sig.FirstErrorMoves (whileReading k s).sig := reading fun seq => congrArg Signalling.firstError (hk seq)
  cases c with
  | powerOnReset | softReset | errorClear => cases hc
  | tick | eraYoungClear | sync | ack | clearFaults | irqEnableUpdate | otherRegisterWrite => exact .inl rfl
  | setupReadFault => exact State.error_moves rfl .setupReadFault
  | setupReadReturn tag bytes => exact setupReturned_firstError bytes s
  | lensMessage line =>
    exact .inl (hearLine_keeps (P := fun u => u.sig.firstError = s.sig.firstError)
      (fun u e h => (hearEvent_firstError u e).trans h) rfl line)
  | quietTimerExpiry =>
    rw [effect_quietTimerExpiry]
    split <;> exact .inl rfl
  | temperatureSample milli =>
    refine .inl ((congrArg Signalling.firstError (thermalSample_sig (wholeDegrees milli) s)).trans ?_)
    rw [Signalling.follow_firstError, Signalling.follow_firstError]
  | cancel => exact cancelRequest_firstError s
  | modeRun =>
    rw [effect_modeRun]
    split
    · exact .inl rfl
    · exact State.error_moves rfl _
  | modeReopen =>
    rw [effect_modeReopen]
    split
    · exact .inl rfl
    · exact State.error_moves rfl _
  | postWrite value =>
    rw [effect_postWrite]
    split
    · split
      · refine .inl ((congrArg Signalling.firstError (State.cancelCheck_sig _)).trans ?_)
        exact Signalling.idleFlush_firstError _ _
      · exact State.error_moves rfl _
    · exact State.error_moves rfl _
  | xbaseWrite value =>
    rw [effect_xbaseWrite]
    split
    · split
      · exact .inl rfl
      · exact State.error_moves rfl _
    · exact State.error_moves rfl _
  | takeDocket =>
    rw [effect_takeDocket]
    split <;> exact .inl rfl
  | markDocket =>
    rw [effect_markDocket]
    split <;> exact .inl rfl
  | frameDocket tag bytes => exact kept fun seq => frameReturned_sig _ seq s
  | installDocket tag bytes => exact kept fun seq => installReturned_sig bytes seq s
  | dropDocket tag bytes => exact kept fun seq => dropReturned_sig bytes seq s
  | trimNudge tag bytes => exact kept fun seq => nudgeReturned_sig bytes seq s
  | trimSet tag bytes => exact kept fun seq => setReturned_sig bytes seq s
  | badTrimMode tag bytes => exact kept fun seq => badModeReturned_sig bytes seq s
  | optionsDocket tag bytes => exact reading fun seq => optionsReturned_firstError bytes seq s
  | badKindDocket tag bytes =>
    exact kept (k := fun seq s => s.answer (refusal seq (docketKind bytes) false .badKind [])) fun _ => rfl
  | installValidation tag bytes => exact same (imageReturned_sig bytes r s)
  | imageReadFault => exact .inl (imageFault_firstError s)
  | resolveFrame => exact same (resolvePlaced_sig s)
  | pick => exact same (State.pick_sig s)
  | bandReadReturn tag bytes => exact same (rowReturned_sig bytes r s)
  | bandWriteAck => exact same (writeAcked_sig r s)
  | bandBusError => exact .inl (bandFailed_firstError s)
  | memoryRequestTimeout => exact busError_firstError r s
  | drainEnd => exact same (drainEnd_sig s)
  | outcomeTakeUp =>
    rw [effect_outcomeTakeUp]
    split
    · exact same (takeUpAnswer_sig s)
    · exact .inl rfl
  | outcomeWriteAck => exact same (answerWriteAcked_sig r s)
  | reportWriteTakeUp =>
    rw [effect_reportWriteTakeUp]
    split <;> exact .inl rfl
  | reportWriteAck =>
    rw [effect_reportWriteAck]
    split <;> exact .inl rfl
  | signallingUpdate =>
    refine .inl (withInHand_keeps (P := fun u => u.sig.firstError = s.sig.firstError) rfl fun x _ _ => ?_)
    exact (congrArg Signalling.firstError (State.cancelCheck_sig _)).trans (Signalling.update_firstError _ _ _ _)
  | exchangeFault => exact exchangeFault_firstError s
  | cancelComplete =>
    rw [effect_cancelComplete]
    split <;> exact .inl rfl

theorem exec_firstError {c : Instr} {s t : State} (h : exec c s = .next t) (hc : clearsFirstError c = false) :
    s.sig.FirstErrorMoves t.sig := by
  obtain rfl | ⟨p, rfl⟩ | ⟨r, p, rfl⟩ := exec_effect h
  · exact .inl rfl
  · exact .inl rfl
  · exact effect_firstError hc r _

theorem exec_firstError_cleared {c : Instr} {s t : State} (h : exec c s = .next t) (hc : clearsFirstError c = true) :
    t.sig.firstError = none ∧ (c = .errorClear ∨ c = .softReset ∨ c = .powerOnReset) := by
  cases c with
  | errorClear => exact ⟨by rw [← Host.Outcome.next.inj h], .inl rfl⟩
  | softReset =>
    exact ⟨by rw [← Host.Outcome.next.inj h, State.softReset_sig, Signalling.softReset_eq], .inr (.inl rfl)⟩
  | powerOnReset => exact ⟨by rw [← Host.Outcome.next.inj h]; rfl, .inr (.inr rfl)⟩
  | _ => cases hc

/-- Settles O60. -/
theorem firstErrorKept : Obligations.FirstErrorKept := by
  refine ⟨fun c s t e hset h => ?_, fun c s t e hnone h hset => ?_⟩
  · cases hc : clearsFirstError c
    · left
      obtain hsame | ⟨⟨e', hmoved⟩, -⟩ := exec_firstError h hc
      · rw [hsame, hset]
      · rw [hmoved, hset]
        rfl
    · exact .inr (exec_firstError_cleared h hc)
  · cases hc : clearsFirstError c
    · obtain hsame | ⟨-, herror⟩ := exec_firstError h hc
      · rw [hsame, hnone] at hset
        cases hset
      · exact herror
    · rw [(exec_firstError_cleared h hc).1] at hset
      cases hset

end Sys2Proof.Machine

/-! PROOFS. The register window: what reads return and what POST and XBASE writes do (O48), and how the parts of a CTRL
write act in turn (O47). -/

namespace Sys2Proof.Machine

/-! ### Reads (O48) -/

theorem leBytes_getElem? (n v : Nat) {j : Nat} (h : j < n) :
    (leBytes n v)[j]? = some (BitVec.ofNat 8 (v / 256 ^ j)) := by
  induction n generalizing v j with
  | zero => omega
  | succ n ih =>
    cases j with
    | zero => simp [leBytes]
    | succ j =>
      rw [leBytes, List.getElem?_cons_succ, ih _ (by omega), Nat.div_div_eq_div_mul, Nat.pow_succ, Nat.mul_comm]

theorem extractLsb'_byte {w : Nat} (x : BitVec w) (j : Nat) :
    BitVec.ofNat 8 (x.toNat / 256 ^ j) = x.extractLsb' (8 * j) 8 := by
  apply BitVec.eq_of_toNat_eq
  rw [BitVec.extractLsb'_toNat, BitVec.toNat_ofNat, Nat.shiftRight_eq_div_pow, Nat.pow_mul]

theorem readWindow_length (s : State) (offset width : Nat) :
    (readWindow s offset width).length = min width (4 - offset % 4) := by
  simp [readWindow]

theorem readWindow_getElem? (s : State) (offset : Nat) {width i : Nat} (hw : i < width) (h4 : offset % 4 + i < 4) :
    (readWindow s offset width)[i]?
      = some ((readRegister s (offset - offset % 4)).extractLsb' (8 * (offset % 4 + i)) 8) := by
  rw [readWindow, List.getElem?_take_of_lt hw, List.getElem?_drop, leBytes_getElem? _ _ h4, extractLsb'_byte]

theorem extractLsb'_eq {w n start : Nat} {x : BitVec w} {y : BitVec n}
    (h : ∀ i < n, x.getLsbD (start + i) = y.getLsbD i) : x.extractLsb' start n = y := by
  refine BitVec.eq_of_getLsbD_eq fun i hi => ?_
  rw [BitVec.getLsbD_extractLsb', h i hi, decide_eq_true hi, Bool.true_and]

/-- R128: the fields of the STATUS picture, each where the picture lays it. -/
theorem status_layout (error code : BitVec 8) (latches flags : BitVec 5) (cancelling : Bool) (state : BitVec 2) :
    let w := error ++ code ++ 0#3 ++ latches ++ flags ++ BitVec.ofBool cancelling ++ state
    w.extractLsb' 0 2 = state ∧ w.getLsbD 2 = cancelling ∧ (∀ i < 5, w.getLsbD (3 + i) = flags.getLsbD i)
      ∧ (∀ i < 5, w.getLsbD (8 + i) = latches.getLsbD i) ∧ w.extractLsb' 13 3 = 0 ∧ w.extractLsb' 16 8 = code
      ∧ w.extractLsb' 24 8 = error := by
  refine ⟨extractLsb'_eq fun i hi => ?_, ?_, fun i hi => ?_, fun i hi => ?_, extractLsb'_eq fun i hi => ?_,
    extractLsb'_eq fun i hi => ?_, extractLsb'_eq fun i hi => ?_⟩ <;>
    simp only [BitVec.getLsbD_append]
  · interval_cases i <;> simp
  · simp
  all_goals interval_cases i <;> simp

theorem OpState.code_eq (x : OpState) : BitVec.ofNat 2 x.code
    = (match x with | .setup => 0 | .run => 1 | .hot => 2 | .halted => 3) := by cases x <;> rfl

/-! ### POST and XBASE (O48) -/

theorem exec_postWrite (s : State) (v : BitVec 32) : exec (.postWrite v) s = .next (if s.working then
    (if s.postInRange (v.setWidth 16) then acceptPost (v.setWidth 16) s else s.error .postRange)
  else s.error .postState) := rfl

theorem State.postInRange_iff (s : State) (new : Count) : s.postInRange new = true ↔
    (s.intake.taken - s.intake.retired).toNat ≤ (new - s.intake.retired).toNat
      ∧ (new - s.intake.retired).toNat ≤ 64 := decide_eq_true_iff

/-- R141: the idle flush of an accepted POST write. -/
theorem Signalling.idleFlush_eq (g : Signalling) (retired new : Count) : g.idleFlush (retired == new) =
    if new = retired ∧ 0 < g.counter then
      { g with flags := { g.flags with done := true }, counter := 0 }
    else g := by
  refine if_congr (and_congr_left' ?_) rfl rfl
  rw [beq_iff_eq]
  exact eq_comm

theorem lowerBoundary_eq (retired new : Count) (c : Cancel) : lowerBoundary retired new c = { c with
    boundary := if (new - retired).toNat < (c.boundary - retired).toNat then new else c.boundary } := by
  unfold lowerBoundary ahead
  split <;> rfl

/-- The state an accepted POST write leaves before the completion check of a cancel. -/
def postTaken (new : Count) (s : State) : State := { s with
  win := { s.win with post := new, cancel := s.win.cancel.map (lowerBoundary s.intake.retired new) }
  sig := s.sig.idleFlush (s.intake.retired == new) }

theorem acceptPost_eq (new : Count) (s : State) : acceptPost new s = (postTaken new s).cancelCheck := rfl

theorem acceptPost_settled {new : Count} {s : State} {c : Cancel} (hw : s.working = true) (hc : s.win.cancel = some c)
    (hstage : c.stage = .working) (h : s.cancelSettled (lowerBoundary s.intake.retired new c).boundary = true) :
    acceptPost new s = { postTaken new s with
      win := { s.win with
        post := new
        cancel := some { boundary := (lowerBoundary s.intake.retired new c).boundary, stage := .reportAsked } }
      report := { s.report with pending := true } } := by
  have hcancel : (postTaken new s).win.cancel = some (lowerBoundary s.intake.retired new c) :=
    congrArg (Option.map (lowerBoundary s.intake.retired new)) hc
  have hstage' : (lowerBoundary s.intake.retired new c).stage = .working := by
    rw [lowerBoundary_eq]
    exact hstage
  rw [acceptPost_eq, State.cancelCheck_settled hcancel hstage' h]
  show ({ postTaken new s with win := _, report := s.report.ask s.working } : State) = _
  rw [hw, ReportWriter.ask_true]
  rfl

theorem acceptPost_open {new : Count} {s : State} {c : Cancel} (hc : s.win.cancel = some c)
    (h : ¬ (c.stage = .working ∧ s.cancelSettled (lowerBoundary s.intake.retired new c).boundary = true)) :
    acceptPost new s = postTaken new s := by
  have hcancel : (postTaken new s).win.cancel = some (lowerBoundary s.intake.retired new c) :=
    congrArg (Option.map (lowerBoundary s.intake.retired new)) hc
  refine State.cancelCheck_open hcancel fun ⟨hstage, hsettled⟩ => h ⟨?_, hsettled⟩
  rw [lowerBoundary_eq] at hstage
  exact hstage

theorem exec_xbaseWrite (s : State) (v : BitVec 32) : exec (.xbaseWrite v) s = .next (
    if s.win.state = .setup ∧ s.win.setupRead = false then
      (if v.toNat % 4096 = 0 then { s with win := { s.win with xbase := v } } else s.error .xbaseAlign)
    else s.error .xbaseLocked) := rfl

/-- Settles O48. -/
theorem registerWindow : Obligations.RegisterWindow := by
  refine ⟨by decide, fun s => ⟨rfl, ?_, ?_, rfl, fun offset h => ?_, ?_⟩, fun s offset width i =>
    ⟨readWindow_length s offset width, readWindow_getElem? s offset⟩, fun s v => ⟨fun hidle => ?_, fun hw => ?_⟩,
    fun s v => ⟨fun hsetup hread => ?_, fun hlocked => ?_⟩, fun _ _ _ _ => rfl⟩
  · show 0#15 ++ BitVec.ofBool s.sig.irqEnable ++ 0#16 = _
    cases s.sig.irqEnable <;> rfl
  · show 0#16 ++ s.win.post = s.win.post.setWidth 32
    exact (BitVec.setWidth_eq_append (by decide)).symm
  · unfold readRegister
    split <;> simp_all
  · obtain ⟨hstate, hcancel, hflags, hlatches, hzero, hcode, herror⟩ := status_layout
      (BitVec.ofNat 8 ((s.sig.firstError.map ErrorCode.code).getD 0)) s.thermal.code s.sig.latches.bits
      s.sig.flags.bits s.win.cancel.isSome (BitVec.ofNat 2 s.win.state.code)
    refine ⟨hstate.trans (OpState.code_eq _), ?_, hzero, hcode, herror.trans ?_⟩
    · have flag (i : Nat) (hi : i < 5) := (hflags i hi).trans (Flags.getLsbD_bits _ hi)
      have latch (i : Nat) (hi : i < 5) := (hlatches i hi).trans (getLsbD_five_bits _ _ _ _ _ hi)
      refine List.cons_eq_cons.mpr ⟨hcancel, ?_⟩
      simp only [List.map, List.cons.injEq, and_true]
      exact ⟨flag 0 (by decide), flag 1 (by decide), flag 2 (by decide), flag 3 (by decide), flag 4 (by decide),
        latch 0 (by decide), latch 1 (by decide), latch 2 (by decide), latch 3 (by decide), latch 4 (by decide)⟩
    · cases s.sig.firstError <;> rfl
  · rw [exec_postWrite, State.working_of_idle hidle, if_neg (by decide), State.error_eq_withError]
  · rw [exec_postWrite, if_pos (s.working_iff.mpr hw)]
    refine ⟨fun hout => ?_, fun hahead hbehind hnone => ?_, fun hahead hbehind c hc => ?_⟩
    · rw [if_neg, State.error_eq_withError]
      intro hin
      obtain ⟨hbehind, hahead⟩ := (s.postInRange_iff _).mp hin
      omega
    · have hsame : s.win.cancel.map (lowerBoundary s.intake.retired (v.setWidth 16)) = s.win.cancel := by
        rw [hnone]
        rfl
      rw [if_pos ((s.postInRange_iff _).mpr ⟨hbehind, hahead⟩), acceptPost_eq, State.cancelCheck_of_none,
        postTaken, Signalling.idleFlush_eq, hsame]
      exact hsame.trans hnone
    · have hboundary := congrArg Cancel.boundary (lowerBoundary_eq s.intake.retired (v.setWidth 16) c)
      rw [if_pos ((s.postInRange_iff _).mpr ⟨hbehind, hahead⟩)]
      refine ⟨fun ⟨hstage, hsettled⟩ => ?_, fun hopen => ?_⟩
      · rw [acceptPost_settled (s.working_iff.mpr hw) hc hstage, postTaken, Signalling.idleFlush_eq, hboundary]
        exact (s.cancelSettled_iff _).mpr (hboundary ▸ hsettled)
      · rw [acceptPost_open hc, postTaken, Signalling.idleFlush_eq, hc, Option.map_some, lowerBoundary_eq]
        rintro ⟨hstage, hsettled⟩
        rw [hboundary, State.cancelSettled_iff] at hsettled
        exact hopen ⟨hstage, hsettled⟩
  · rw [exec_xbaseWrite, if_pos ⟨hsetup, hread⟩]
    refine ⟨fun haligned => ?_, fun hmisaligned => ?_⟩
    · rw [if_pos haligned]
    · rw [if_neg hmisaligned, State.error_eq_withError]
  · rw [exec_xbaseWrite, if_neg, State.error_eq_withError]
    rintro ⟨hsetup, hread⟩
    exact hlocked.elim (· hsetup) fun hread' => Bool.false_ne_true (hread.symm.trans hread')

/-! ### The parts of a CTRL write (O47) -/

theorem execAll_append {l : List Instr} {s u : State} (h : execAll l s = .next u) (m : List Instr) :
    execAll (l ++ m) s = execAll m u := by
  induction l generalizing s with
  | nil => rw [← Host.Outcome.next.inj h]; rfl
  | cons c l ih =>
    obtain ⟨t, ht⟩ := exec_completes c s
    rw [execAll, ht] at h
    rw [List.cons_append, execAll, ht]
    exact ih h

theorem execAll_one (c : Instr) (s : State) : execAll [c] s = exec c s := by
  obtain ⟨t, ht⟩ := exec_completes c s
  rw [execAll, ht]
  rfl

/-- A part that acts where its bit is set. -/
theorem execAll_if {c : Instr} {s t : State} (h : exec c s = .next t) (b : Bool) :
    execAll (if b then [c] else []) s = .next (if b then t else s) := by
  cases b
  · rfl
  · exact (execAll_one c s).trans h

theorem Flags.ack_zero (f : Flags) : f.ack 0 = f := by simp [Flags.ack]

theorem execAll_ack (mask : BitVec 5) (s : State) : execAll (if mask = 0 then [] else [.ack mask]) s
    = .next { s with sig := { s.sig with flags := s.sig.flags.ack mask } } := by
  split
  · next hzero =>
    rw [hzero, Flags.ack_zero]
    rfl
  · exact execAll_one _ s

/-- R137: the flags as the bits 8 to 12 of a CTRL write acknowledge them. -/
theorem Flags.ack_ctrl (f : Flags) (v : BitVec 32) : f.ack (v.extractLsb' 8 5) =
    { done := f.done && !v.getLsbD 8, rush := f.rush && !v.getLsbD 9, fault := f.fault && !v.getLsbD 10
      error := f.error && !v.getLsbD 11, cancel := f.cancel && !v.getLsbD 12 } := by
  simp [Flags.ack]

/-- R163: the state after the acknowledgement, CLEAR_FAULTS, ERROR_CLEAR and the IRQ enable update of a CTRL write. -/
def ctrlStrobed (v : BitVec 32) (s : State) : State := { s with sig := { s.sig with
  flags := { done := s.sig.flags.done && !v.getLsbD 8, rush := s.sig.flags.rush && !v.getLsbD 9
             fault := s.sig.flags.fault && !v.getLsbD 10, error := s.sig.flags.error && !v.getLsbD 11
             cancel := s.sig.flags.cancel && !v.getLsbD 12 }
  latches := if v.getLsbD 3 = false then s.sig.latches else
    { lensQuiet := s.sig.latches.lensQuiet && s.sig.live.quiet, lensChange := false
      heatWarn := s.sig.latches.heatWarn && s.sig.live.warning
      heatShutdown := s.sig.latches.heatShutdown && s.sig.live.shutdown, memory := false }
  firstError := if v.getLsbD 4 = true then none else s.sig.firstError
  irqEnable := if v.getLsbD 17 = true then v.getLsbD 16 else s.sig.irqEnable } }

theorem execAll_strobes (v : BitVec 32) (s : State) :
    execAll ((if v.extractLsb' 8 5 = 0 then [] else [.ack (v.extractLsb' 8 5)])
      ++ (if v.getLsbD 3 then [.clearFaults] else []) ++ (if v.getLsbD 4 then [.errorClear] else [])
      ++ (if v.getLsbD 17 then [.irqEnableUpdate true (v.getLsbD 16)] else [])) s = .next (ctrlStrobed v s) := by
  rw [execAll_append (execAll_append (execAll_append (execAll_ack _ s) _ |>.trans (execAll_if rfl _)) _
    |>.trans (execAll_if rfl _)), execAll_if rfl, Flags.ack_ctrl]
  unfold ctrlStrobed
  cases v.getLsbD 3 <;> cases v.getLsbD 4 <;> cases v.getLsbD 17 <;> rfl

/-- R163: the MODE request of a CTRL write. -/
def ctrlMode (v : BitVec 32) : List Instr :=
  if v.extractLsb' 0 2 = 1 then [.modeRun] else if v.extractLsb' 0 2 = 2 then [.modeReopen] else []

theorem execAll_ctrlMode (v : BitVec 32) (w : State) : execAll (ctrlMode v) w =
    if v.extractLsb' 0 2 = 1 then exec .modeRun w
    else if v.extractLsb' 0 2 = 2 then exec .modeReopen w else .next w := by
  unfold ctrlMode
  split
  · exact execAll_one _ w
  · split
    · exact execAll_one _ w
    · rfl

/-- R163: the state a CTRL write without SOFT_RESET comes to its MODE request with. -/
def ctrlCancelled (v : BitVec 32) (s : State) : State :=
  if v.getLsbD 2 then cancelRequest (ctrlStrobed v s) else ctrlStrobed v s

theorem execAll_ctrlWrite {v : BitVec 32} (h : v.getLsbD 5 = false) (s : State) :
    execAll (ctrlWrite v) s = execAll (ctrlMode v) (ctrlCancelled v s) := by
  rw [ctrlWrite, h, if_neg (by decide)]
  exact execAll_append ((execAll_append (execAll_strobes v s) _).trans (execAll_if rfl _)) _

theorem ctrlCancelled_of_cancel {v : BitVec 32} (h : v.getLsbD 2 = true) (s : State) :
    ctrlCancelled v s = cancelRequest (ctrlStrobed v s) := by rw [ctrlCancelled, h, if_pos rfl]

theorem ctrlCancelled_of_no_cancel {v : BitVec 32} (h : v.getLsbD 2 = false) (s : State) :
    ctrlCancelled v s = ctrlStrobed v s := by rw [ctrlCancelled, h, if_neg (by decide)]

theorem ctrlStrobed_firstError {v : BitVec 32} (h : v.getLsbD 4 = true) (s : State) :
    (ctrlStrobed v s).sig.firstError = none := by rw [ctrlStrobed, h, if_pos rfl]

theorem State.error_firstError {s : State} (h : s.sig.firstError = none) (e : ErrorCode) :
    (s.error e).sig.firstError = some e := by
  rw [State.error_sig, Signalling.error, h]
  rfl

/-- A MODE request leaves ERROR and a first-error code as they stand. -/
theorem execAll_ctrlMode_keeps {v : BitVec 32} {w t : State} (h : execAll (ctrlMode v) w = .next t)
    (herror : w.sig.flags.error = true) : t.sig.flags.error = true
      ∧ ∀ e, w.sig.firstError = some e → t.sig.firstError = some e := by
  have kept (u : State) (hu : u.sig = w.sig) (e : ErrorCode) : (u.error e).sig.flags.error = true
      ∧ ∀ e', w.sig.firstError = some e' → (u.error e).sig.firstError = some e' := by
    refine ⟨rfl, fun e' he' => ?_⟩
    rw [State.error_sig, Signalling.error, hu, he']
    rfl
  rw [execAll_ctrlMode] at h
  split at h
  · obtain rfl := Host.Outcome.next.inj ((exec_modeRun w).symm.trans h)
    split
    · exact ⟨herror, fun _ => id⟩
    · exact kept w rfl _
  · split at h
    · obtain rfl := Host.Outcome.next.inj ((exec_modeReopen w).symm.trans h)
      split
      · exact ⟨herror, fun _ => id⟩
      · exact kept w rfl _
    · obtain rfl := Host.Outcome.next.inj h
      exact ⟨herror, fun _ => id⟩

theorem cancelRequest_idle {s : State} (h : s.win.state = .setup ∨ s.win.state = .halted) :
    cancelRequest s = s.error .cancelState := by
  rw [cancelRequest, State.working_of_idle h, if_neg (by decide)]

/-- R167: after a CANCEL accepted in RUN or HOT a cancel is in progress, and no error. -/
theorem cancelRequest_working {s : State} (h : s.working = true) : (cancelRequest s).win.cancel ≠ none
    ∧ (cancelRequest s).win.state = s.win.state ∧ (cancelRequest s).sig = s.sig := by
  rw [cancelRequest, if_pos h]
  split
  · next hcancel => exact ⟨Option.isSome_iff_ne_none.mp hcancel, rfl, rfl⟩
  · refine ⟨?_, State.cancelCheck_state _, acceptCancel_sig s⟩
    unfold acceptCancel
    obtain hsame | ⟨c, -, -, hasked⟩ := State.cancelCheck_win { s with
      win := { s.win with cancel := some { boundary := s.win.post, stage := .working } }
      writer := s.writer.add (cancelAnswers s.work) }
    · rw [hsame]
      exact Option.some_ne_none _
    · rw [hasked]
      exact Option.some_ne_none _

theorem registerWrite_other {offset width : Nat} (h : width ≠ 4 ∨ offset ∉ [0x04, 0x08, 0x10]) (v : BitVec 32) :
    registerWrite offset width v = [.otherRegisterWrite offset width v] := by
  unfold registerWrite
  split
  · next hwidth =>
    have hoffset := h.resolve_left (· hwidth)
    split <;> simp_all
  · rfl

/-- Settles O47. -/
theorem ctrlWriteOrder : Obligations.CtrlWriteOrder := by
  refine ⟨fun v s hsoft => ?_, fun v s hsoft => ⟨ctrlCancelled v s, ?_, ?_⟩, fun offset width v s => ⟨rfl, ?_, ?_⟩,
    fun s => rfl, fun v s t hsoft hcancel hidle h => ?_, fun v s t hsoft hcancel hmode hstate h => ?_,
    fun v s t hsoft hcancel hmode hw h => ?_⟩
  · rw [ctrlWrite, hsoft, if_pos rfl, execAll_one]
  · unfold ctrlCancelled
    split <;> rfl
  · rw [execAll_ctrlWrite hsoft, execAll_ctrlMode]
  · rintro rfl
    refine ⟨?_, ?_, ?_⟩ <;> rintro rfl <;> rfl
  · intro h
    rw [registerWrite_other h]
    exact ⟨rfl, rfl⟩
  · rw [execAll_ctrlWrite hsoft, ctrlCancelled_of_cancel hcancel, cancelRequest_idle (by exact hidle)] at h
    obtain ⟨herror, hfirst⟩ := execAll_ctrlMode_keeps h rfl
    exact ⟨herror, fun hclear => hfirst _ (State.error_firstError (ctrlStrobed_firstError hclear s) _)⟩
  · rw [execAll_ctrlWrite hsoft, ctrlCancelled_of_no_cancel hcancel, execAll_ctrlMode, if_pos hmode, exec_modeRun,
      if_neg fun hrun => hstate hrun.1] at h
    obtain rfl := Host.Outcome.next.inj h
    exact ⟨rfl, fun hclear => State.error_firstError (ctrlStrobed_firstError hclear s) _⟩
  · obtain ⟨hpresent, hsame, hsig⟩ := cancelRequest_working (s := ctrlStrobed v s) ((State.working_iff _).mpr hw)
    have hbusy : ¬ ((cancelRequest (ctrlStrobed v s)).win.state = .run
        ∧ (cancelRequest (ctrlStrobed v s)).quiescent = true) := fun ⟨_, hquiescent⟩ => by
      obtain ⟨-, -, -, hnone, -⟩ := (State.quiescent_iff _).mp hquiescent
      exact hpresent hnone
    rw [execAll_ctrlWrite hsoft, ctrlCancelled_of_cancel hcancel, execAll_ctrlMode, if_neg (by rw [hmode]; decide),
      if_pos hmode, exec_modeReopen, if_neg hbusy] at h
    obtain rfl := Host.Outcome.next.inj h
    refine ⟨hpresent, hsame, rfl, fun hclear => State.error_firstError ?_ _⟩
    rw [hsig, ctrlStrobed_firstError hclear]

end Sys2Proof.Machine

/-! PROOFS. The remap engine (chapter 5 and section 4.5): the order of a pick (O28), the replies of a band (O29, O30)
and the failure of a band with DRAIN (O31). -/

namespace Sys2Proof.Machine

/-! ### Picks (O28) -/

theorem exec_pick (s : State) : exec .pick s = .next s.pick := rfl

theorem State.pick_of_canPick {s : State} (h : s.canPick = true) :
    s.pick = startBand { s with work := pickFrom s.work } :=
  if_pos h

theorem State.pick_of_not {s : State} (h : ¬ s.canPick = true) : s.pick = s := if_neg h

theorem any_eq_false_of_forall {want : Entry → Bool} {work : List Entry} (h : ∀ x ∈ work, want x = false) :
    work.any want = false := by
  rw [List.any_eq_false]
  exact fun x hx => Bool.not_eq_true _ ▸ h x hx

/-- R88: what a pick takes of a list in which no entry is RUNNING. -/
theorem pickFrom_append {pre post : List Entry} {e : Entry}
    (h : (e.state = .waiting ∧ e.rush = true ∧ ∀ x ∈ pre, ¬ (x.state = .waiting ∧ x.rush = true))
      ∨ (e.state = .parked ∧ (∀ x ∈ pre ++ e :: post, ¬ (x.state = .waiting ∧ x.rush = true))
          ∧ ∀ x ∈ pre, x.state ≠ .parked)
      ∨ (e.state = .waiting ∧ e.rush = false ∧ (∀ x ∈ pre ++ e :: post, x.state = .waiting ∧ x.rush = false)
          ∧ pre = [])) :
    pickFrom (pre ++ e :: post) = pre ++ { e with state := .running } :: post := by
  have hmem : e ∈ pre ++ e :: post := List.mem_append_right _ List.mem_cons_self
  have misses {want : Entry → Bool} {P : Entry → Prop} (hiff : ∀ x, want x = true ↔ P x) {x : Entry} (hx : ¬ P x) :
      want x = false := Bool.eq_false_iff.mpr (hx ∘ (hiff x).mp)
  unfold pickFrom
  obtain ⟨hwaiting, hrush, hfirst⟩ | ⟨hparked, hnorush, hfirst⟩ | ⟨hwaiting, hburst, hall, rfl⟩ := h
  · have he := (isWaitingRush_iff e).mpr ⟨hwaiting, hrush⟩
    rw [if_pos (List.any_eq_true.mpr ⟨e, hmem, he⟩)]
    exact runFirst_append _ pre e post (fun x hx => misses isWaitingRush_iff (hfirst x hx)) he
  · have he := (isParked_iff e).mpr hparked
    rw [any_eq_false_of_forall fun x hx => misses isWaitingRush_iff (hnorush x hx), if_neg Bool.false_ne_true,
      if_pos (List.any_eq_true.mpr ⟨e, hmem, he⟩)]
    exact runFirst_append _ pre e post (fun x hx => misses isParked_iff (hfirst x hx)) he
  · have hnorush : ∀ x ∈ [] ++ e :: post, isWaitingRush x = false := fun x hx =>
      misses isWaitingRush_iff fun ⟨_, hrush⟩ => Bool.false_ne_true ((hall x hx).2.symm.trans hrush)
    have hnoparked : ∀ x ∈ [] ++ e :: post, isParked x = false := fun x hx =>
      misses isParked_iff fun hparked => by rw [(hall x hx).1] at hparked; cases hparked
    rw [any_eq_false_of_forall hnorush, any_eq_false_of_forall hnoparked, if_neg Bool.false_ne_true,
      if_neg Bool.false_ne_true]
    exact runFirst_append _ [] e post (List.forall_mem_nil _) ((isWaitingBurst_iff e).mpr ⟨hwaiting, hburst⟩)

/-- Settles O28. -/
theorem pickOrder : Obligations.PickOrder := by
  refine ⟨fun s pre e post hfree hrun hcancel hwork hidle htakes => ?_, fun s h => ?_⟩
  · have hmem : e ∈ s.work := hwork ▸ List.mem_append_right _ List.mem_cons_self
    have hpicked : pickFrom s.work = pre ++ { e with state := .running } :: post := by
      rw [hwork] at htakes ⊢
      exact pickFrom_append htakes
    rw [exec_pick, State.pick_of_canPick (State.canPick_iff.mpr ⟨hfree, hrun, hcancel, e, hmem, hidle e hmem⟩)]
    exact startBand_starts { s with work := pickFrom s.work } pre { e with state := .running } post hpicked
      (fun x hx => hidle x (hwork ▸ List.mem_append_left _ hx))
      (fun x hx => hidle x (hwork ▸ List.mem_append_right _ (List.mem_cons_of_mem _ hx))) rfl
  · rw [exec_pick, State.pick_of_not]
    intro hpick
    obtain ⟨hfree, hrun, hcancel, x, hx, hidle⟩ := State.canPick_iff.mp hpick
    obtain hne | hne | hne | hall := h
    exacts [hne hfree, hne hrun, hne hcancel, hidle (hall x hx)]

/-! ### A band's read returns (O29) -/

/-- Where the engine is in BAND, and where it is not. -/
theorem Engine.band_or_not (e : Engine) :
    (∃ cache tally rest, e = .band cache tally rest) ∨ ∀ cache tally rest, e ≠ .band cache tally rest := by
  cases e with
  | band cache tally rest => exact .inl ⟨cache, tally, rest, rfl⟩
  | free | drain | outcome => exact .inr fun _ _ _ => nofun

theorem rowReturned_band {s : State} {cache : List CachedRow} {tally : Nat} {rest : List (Use × Access)}
    (h : s.engine = .band cache tally rest) (bytes : List Byte) (r : Request) : rowReturned bytes r s =
      State.bandMoves { s with engine := .band (cacheRow r.use bytes cache) tally rest } Use.isBandRead rest
        computeBand := by
  unfold rowReturned
  rw [h]

theorem rowReturned_outside {s : State} (h : ∀ cache tally rest, s.engine ≠ .band cache tally rest)
    (bytes : List Byte) (r : Request) : rowReturned bytes r s = s := by
  unfold rowReturned
  split
  · exact absurd ‹_› (h _ _ _)
  · rfl

section Moves
variable {s : State} {kind : Use → Bool} {rest : List (Use × Access)} {finished : State → State}

/-- The three moves of R79, each under its own condition. -/
theorem State.bandMoves_more (h : rest ≠ []) : s.bandMoves kind rest finished = s.issueMore := by
  obtain ⟨-, he⟩ | ⟨hnil, -⟩ | ⟨hnil, -⟩ := s.bandMoves_cases kind rest finished
  exacts [he, absurd hnil h, absurd hnil h]

theorem State.bandMoves_waits (h : rest = []) (hout : s.port.has kind = true) :
    s.bandMoves kind rest finished = s := by
  obtain ⟨hne, -⟩ | ⟨-, -, he⟩ | ⟨-, hnone, -⟩ := s.bandMoves_cases kind rest finished
  exacts [absurd h hne, he, absurd (hout.symm.trans hnone) Bool.true_eq_false.mp]

theorem State.bandMoves_ends (h : rest = []) (hout : s.port.has kind = false) :
    s.bandMoves kind rest finished = finished s := by
  obtain ⟨hne, -⟩ | ⟨-, hhas, -⟩ | ⟨-, -, he⟩ := s.bandMoves_cases kind rest finished
  exacts [absurd h hne, absurd (hhas.symm.trans hout) Bool.true_eq_false.mp, he]

end Moves

theorem has_portWithout_false {s : State} {tag : Nat} {sort : Use → Bool}
    (h : ∀ r ∈ s.port.reqs, r.tag ≠ tag → r.live = true → sort r.use = false) :
    (s.portWithout tag).has sort = false := by
  rw [Bool.eq_false_iff]
  intro hhas
  obtain ⟨r, hr, htag, hlive, huse⟩ := (has_portWithout s tag sort).mp hhas
  rw [h r hr htag hlive] at huse
  cases huse

/-- Settles O29. -/
theorem bandReadReturned : Obligations.BandReadReturned := by
  intro s tag c row bytes ⟨addr, hfind⟩ returned t
  have hreturned : returned = .next (rowReturned bytes
      { tag, use := .bandRead c row, access := .read addr bytes.length, live := true } t) :=
    congrArg Host.Outcome.next (onReply_live hfind (by simp [isRowRead, Use.isBandRead, Access.readLength]) rfl _)
  rw [hreturned]
  refine ⟨fun houtside => congrArg _ (rowReturned_outside (s := t) houtside _ _), fun cache tally rest hband => ?_⟩
  rw [rowReturned_band (s := t) hband]
  refine ⟨fun hrest => ?_, fun hrest hout => ?_, fun hrest hlast e he hrows => ?_⟩
  · rw [State.bandMoves_more hrest]
    exact State.issueMore_issues (s := { t with engine := .band _ tally rest }) rfl hrest
  · rw [State.bandMoves_waits hrest ((has_portWithout s tag _).mpr hout), hrest]
    rfl
  · rw [State.bandMoves_ends hrest (has_portWithout_false hlast)]
    exact computeBand_issues (s := { t with engine := .band _ tally rest }) he rfl hrows

/-! ### A band's write is acknowledged (O30) -/

theorem writeAcked_band {s : State} {cache : List CachedRow} {tally : Nat} {rest : List (Use × Access)}
    (h : s.engine = .band cache tally rest) (r : Request) :
    writeAcked r s = s.bandMoves Use.isBandWrite rest (bandDone tally) := by
  unfold writeAcked
  rw [h]

theorem writeAcked_outside {s : State} (h : ∀ cache tally rest, s.engine ≠ .band cache tally rest) (r : Request) :
    writeAcked r s = s := by
  unfold writeAcked
  split
  · exact absurd ‹_› (h _ _ _)
  · rfl

/-- R86: the RUNNING entry goes to the outcome writer. -/
theorem State.toOutcome_eq {s : State} {e : Entry} (h : runningEntry s.work = some e) (v : Verdict) :
    s.toOutcome v = { s with
      engine := .outcome, writer := { s.writer with waiting := s.writer.waiting ++ [.entry e.seq v] } } := by
  unfold State.toOutcome runningAnswer
  rw [h]
  rfl

/-- R89: a band done, the list around the RUNNING entry laid out. -/
theorem bandDone_append {s : State} {pre post : List Entry} {e : Entry} (hwork : s.work = pre ++ e :: post)
    (he : e.state = .running) (hothers : ∀ x ∈ pre ++ post, x.state ≠ .running) (tally : Nat) :
    let t : State := { s with work := pre ++ bandCounted tally e :: post }
    bandDone tally s =
      if s.win.cancel.isSome then t.toOutcome .cancelled
      else if e.nextBand + 1 = e.geo.bands then t.toOutcome .finished
      else if !e.rush && t.work.any isWaitingRush then t.park
      else startBand t := by
  have hpre : ∀ x ∈ pre, x.state ≠ .running := fun x hx => hothers x (List.mem_append_left _ hx)
  have hpost : ∀ x ∈ post, x.state ≠ .running := fun x hx => hothers x (List.mem_append_right _ hx)
  unfold bandDone
  rw [hwork, mapRunning_append _ pre e post hpre hpost he]
  dsimp only
  rw [runningEntry_append pre (bandCounted tally e) post hpre he]
  rfl

/-- R90: an entry WAITING with class RUSH beside the RUNNING one. -/
theorem any_isWaitingRush_iff {pre post : List Entry} {e : Entry} (he : e.state = .running) :
    (pre ++ e :: post).any isWaitingRush = true ↔ ∃ x ∈ pre ++ post, x.state = .waiting ∧ x.rush = true := by
  rw [List.any_eq_true]
  constructor
  · rintro ⟨x, hx, hrush⟩
    obtain ⟨hwaiting, hclass⟩ := (isWaitingRush_iff x).mp hrush
    refine ⟨x, ?_, hwaiting, hclass⟩
    obtain hx | hx := List.mem_append.mp hx
    · exact List.mem_append_left _ hx
    · obtain rfl | hx := List.mem_cons.mp hx
      · rw [he] at hwaiting
        cases hwaiting
      · exact List.mem_append_right _ hx
  · rintro ⟨x, hx, hrush⟩
    refine ⟨x, ?_, (isWaitingRush_iff x).mpr hrush⟩
    obtain hx | hx := List.mem_append.mp hx
    · exact List.mem_append_left _ hx
    · exact List.mem_append_right _ (List.mem_cons_of_mem _ hx)

theorem bandCounted_eq (tally : Nat) (e : Entry) : bandCounted tally e = { e with
    nextBand := e.nextBand + 1, border := e.border + tally
    notes := if 0 < e.border + tally then addNote e.notes .border else e.notes } := by
  unfold bandCounted noteIf
  simp only [decide_eq_true_eq]

/-- Settles O30. -/
theorem bandDoneAtBoundary : Obligations.BandDone := by
  intro s tag c row ⟨pieces, hfind⟩ acked t
  have hacked : acked = .next (writeAcked
      { tag, use := .bandWrite c row, access := .write pieces, live := true } t) :=
    congrArg Host.Outcome.next (onReply_live hfind rfl rfl _)
  rw [hacked]
  refine ⟨fun houtside => congrArg _ (writeAcked_outside (s := t) houtside _), fun cache tally rest hband => ?_⟩
  rw [writeAcked_band (s := t) hband]
  refine ⟨fun hrest => ?_, fun hrest hout => ?_, fun hrest hlast pre e post hwork he hothers => ?_⟩
  · rw [State.bandMoves_more hrest]
    exact State.issueMore_issues (s := t) hband hrest
  · rw [State.bandMoves_waits hrest ((has_portWithout s tag _).mpr hout)]
  have hpre : ∀ x ∈ pre, x.state ≠ .running := fun x hx => hothers x (List.mem_append_left _ hx)
  have hpost : ∀ x ∈ post, x.state ≠ .running := fun x hx => hothers x (List.mem_append_right _ hx)
  have hrunning : runningEntry (pre ++ bandCounted tally e :: post) = some (bandCounted tally e) :=
    runningEntry_append pre _ post hpre he
  rw [State.bandMoves_ends hrest (has_portWithout_false hlast),
    bandDone_append (s := t) hwork he hothers, ← bandCounted_eq]
  refine ⟨fun hcancel => ?_, fun hnone hend => ?_, fun hnone hmore hburst hwaiting => ?_,
    fun hnone hmore hgoes => ?_⟩
  · rw [if_pos (Option.isSome_iff_ne_none.mpr hcancel), State.toOutcome_eq hrunning]
    rfl
  all_goals have hgo : ¬ t.win.cancel.isSome = true := by rw [show t.win.cancel = none from hnone]; decide
  · rw [if_neg hgo, if_pos hend, State.toOutcome_eq hrunning]
    rfl
  · have hparks : (!e.rush && (pre ++ bandCounted tally e :: post).any isWaitingRush) = true := by
      rw [hburst, (any_isWaitingRush_iff (e := bandCounted tally e) he).mpr hwaiting]
      rfl
    rw [if_neg hgo, if_neg hmore, if_pos hparks, State.park]
    dsimp only
    rw [mapRunning_append _ pre (bandCounted tally e) post hpre hpost he]
    rfl
  · have hstays : ¬ (!e.rush && (pre ++ bandCounted tally e :: post).any isWaitingRush) = true := by
      rw [Bool.and_eq_true, any_isWaitingRush_iff (e := bandCounted tally e) he]
      rintro ⟨hburst, x, hx, hrush⟩
      obtain hclass | hnone' := hgoes
      · rw [hclass] at hburst
        cases hburst
      · exact hnone' x hx hrush
    rw [if_neg hgo, if_neg hmore, if_neg hstays]
    exact startBand_starts { t with work := pre ++ bandCounted tally e :: post } pre (bandCounted tally e) post rfl
      hpre hpost he

/-! ### A band fails (O31) -/

theorem bandFailed_band {s : State} {cache : List CachedRow} {tally : Nat} {rest : List (Use × Access)}
    (h : s.engine = .band cache tally rest) :
    bandFailed s = { s with sig := s.sig.latch .memory }.stopBand (.abandoned .memoryFault) := by
  unfold bandFailed
  rw [h]

theorem bandFailed_outside {s : State} (h : ∀ cache tally rest, s.engine ≠ .band cache tally rest) :
    bandFailed s = s := by
  unfold bandFailed
  split
  · exact absurd ‹_› (h _ _ _)
  · rfl

/-- R148: MEMORY raises FAULT where its latch rises, whatever the mask. -/
theorem Signalling.latch_memory (g : Signalling) : g.latch .memory = { g with
    latches := { g.latches with memory := true }
    flags := { g.flags with fault := g.flags.fault || !g.latches.memory } } := by
  simp [Signalling.latch, Latches.set, Latches.get, ReportMask.raises]

/-- R86: with writes outstanding the engine waits for them in DRAIN. -/
theorem State.stopBand_drains {s : State} (h : s.port.has Use.isBandWrite = true) (v : Verdict) :
    s.stopBand v = { s with port := s.port.ignore Use.isBandRead, engine := .drain v } :=
  if_pos ((has_ignoreReads _).trans h)

theorem State.stopBand_ends {s : State} (h : s.port.has Use.isBandWrite = false) (v : Verdict) :
    s.stopBand v = State.toOutcome { s with port := s.port.ignore Use.isBandRead } v :=
  if_neg (Bool.eq_false_iff.mp ((has_ignoreReads _).trans h))

theorem exec_bandBusError {s : State} {tag : Nat} {c : Channel} {row length : Nat}
    (h : s.awaitsRead tag (.bandRead c row) length ∨ s.awaitsWrite tag (.bandWrite c row)) :
    exec (.bandBusError tag) s = .next (bandFailed { s with port := s.portWithout tag }) := by
  obtain ⟨_, hfind⟩ | ⟨_, hfind⟩ := h
  · exact congrArg Host.Outcome.next (onReply_live hfind rfl rfl _)
  · exact congrArg Host.Outcome.next (onReply_live hfind rfl rfl _)

theorem exec_drainEnd (s : State) : exec .drainEnd s = .next (drainEnd s) := rfl

theorem drainEnd_drain {s : State} {v : Verdict} (h : s.engine = .drain v) :
    drainEnd s = if s.port.has Use.isBandWrite then s else s.toOutcome v := by
  unfold drainEnd
  rw [h]

/-- Settles O31. -/
theorem bandFailure : Obligations.BandFailure := by
  refine ⟨fun s tag c row length hawaits => ⟨fun houtside => ?_, fun cache tally rest e hband hrunning => ?_⟩,
    fun s v e hdrain hrunning => ?_⟩
  · rw [exec_bandBusError hawaits, bandFailed_outside (by exact houtside)]
  · rw [exec_bandBusError hawaits, bandFailed_band (by exact hband), Signalling.latch_memory]
    refine ⟨fun hout => ?_, fun hlast => ?_⟩
    · rw [State.stopBand_drains (by exact (has_portWithout s tag _).mpr hout)]
      rfl
    · rw [State.stopBand_ends (by exact has_portWithout_false hlast), State.toOutcome_eq (by exact hrunning)]
      rfl
  · rw [exec_drainEnd, drainEnd_drain hdrain]
    refine ⟨fun hout => ?_, fun hlast => ?_⟩
    · rw [if_pos (Port.has_eq_true.mpr hout)]
    · rw [if_neg (Bool.eq_false_iff.mp (Port.has_eq_false.mpr hlast)), State.toOutcome_eq hrunning]

end Sys2Proof.Machine

/-! PROOFS. The temperature sample (chapter 8): the code, the two conditions, and the state that follows the shutdown
condition (O53). -/

namespace Sys2Proof.Machine

/-! ### The code and the signalling unit -/

theorem temperatureCode_toNat {t : Int} (hlow : -39 ≤ t) (hhigh : t ≤ 214) :
    ((temperatureCode t).toNat : Int) = t + 40 := by
  rw [temperatureCode, if_neg (by omega), if_neg (by omega), BitVec.toNat_ofInt]
  omega

/-- R146, R148: what the signalling unit is told of the warning condition. -/
theorem Signalling.follow_warning (g : Signalling) (before after : Bool) : g.follow .warning before after = { g with
    live := { g.live with warning := if before = after then g.live.warning else after }
    latches := { g.latches with heatWarn := g.latches.heatWarn || (!before && after) }
    flags := { g.flags with fault := g.flags.fault
      || ((!before && after) && !g.latches.heatWarn && g.mask.heatWarn) } } := by
  cases before <;> cases after <;>
    simp [Signalling.follow, Signalling.conditionStart, Signalling.conditionEnd, Signalling.latch, Condition.latch,
      Latches.set, Latches.get, Live.set, ReportMask.raises]

/-- R146, R148: what it is told of the shutdown condition, whose latch raises FAULT whatever the mask. -/
theorem Signalling.follow_shutdown (g : Signalling) (before after : Bool) : g.follow .shutdown before after = { g with
    live := { g.live with shutdown := if before = after then g.live.shutdown else after }
    latches := { g.latches with heatShutdown := g.latches.heatShutdown || (!before && after) }
    flags := { g.flags with fault := g.flags.fault || ((!before && after) && !g.latches.heatShutdown) } } := by
  cases before <;> cases after <;>
    simp [Signalling.follow, Signalling.conditionStart, Signalling.conditionEnd, Signalling.latch, Condition.latch,
      Latches.set, Latches.get, Live.set, ReportMask.raises]

/-! ### The state that follows the shutdown condition -/

/-- R155, R156: a sample with both conditions judged, before the operating state follows. -/
def sampleJudged (t : Int) (s : State) : State :=
  let code := temperatureCode t
  let warning := judge s.thermal.warning Config.warnStart Config.warnEnd code
  let shutdown := judge s.thermal.shutdown Config.shutdownStart Config.shutdownEnd code
  { s with
    thermal := { code, warning, shutdown }
    sig := (s.sig.follow .warning s.thermal.warning warning).follow .shutdown s.thermal.shutdown shutdown
    work := if !s.thermal.warning && warning then warmInBand s.engine s.work else s.work }

/-- R159, R160: entry to HOT, or the return to RUN without the pick that follows it. -/
def heatFollowed (before after : Bool) (s : State) : State :=
  if s.win.state = .run ∧ (!before && after) = true then breakOffHot { s with win := { s.win with state := .hot } }
  else if s.win.state = .hot ∧ before = true ∧ after = false then { s with win := { s.win with state := .run } }
  else s

theorem thermalSample_eq (t : Int) (s : State) :
    thermalSample t s = followShutdown s.thermal.shutdown (sampleJudged t s).thermal.shutdown (sampleJudged t s) := rfl

/-- R160: the return to RUN makes a pick at once. -/
theorem followShutdown_eq (before after : Bool) (s : State) : followShutdown before after s =
    if s.win.state = .hot ∧ before = true ∧ after = false then (heatFollowed before after s).pick
    else heatFollowed before after s := by
  unfold followShutdown heatFollowed
  cases before <;> cases after <;> cases s.win.state <;> rfl

section Followed
variable (before after : Bool) (s : State)

theorem heatFollowed_win : (heatFollowed before after s).win = { s.win with
    state := if s.win.state = .run ∧ (!before && after) = true then .hot
      else if s.win.state = .hot ∧ before = true ∧ after = false then .run else s.win.state } := by
  unfold heatFollowed
  split
  · exact breakOffHot_win _
  · split <;> rfl

theorem heatFollowed_work : (heatFollowed before after s).work = s.work := by
  unfold heatFollowed
  split
  · exact breakOffHot_work _
  · split <;> rfl

theorem heatFollowed_sig : (heatFollowed before after s).sig = s.sig := by
  unfold heatFollowed
  split
  · exact breakOffHot_sig _
  · split <;> rfl

theorem heatFollowed_thermal : (heatFollowed before after s).thermal = s.thermal := by
  unfold heatFollowed
  split
  · exact breakOffHot_thermal _
  · split <;> rfl

/-- Entry to HOT is the one row that touches more than the operating state. -/
theorem heatFollowed_of_not (h : ¬ (s.win.state = .run ∧ (!before && after) = true)) :
    (heatFollowed before after s).engine = s.engine ∧ (heatFollowed before after s).port = s.port
      ∧ (heatFollowed before after s).writer = s.writer := by
  rw [heatFollowed, if_neg h]
  split <;> exact ⟨rfl, rfl, rfl⟩

theorem breakOffHot_outside {s : State} (h : ∀ cache tally rest, s.engine ≠ .band cache tally rest) :
    breakOffHot s = s := by
  unfold breakOffHot
  split
  · exact absurd ‹_› (h _ _ _)
  · rfl

theorem breakOffHot_band {s : State} {cache : List CachedRow} {tally : Nat} {rest : List (Use × Access)}
    (h : s.engine = .band cache tally rest) : breakOffHot s = s.stopBand (.abandoned .overheat) := by
  unfold breakOffHot
  rw [h]

theorem heatFollowed_outside {s : State} (h : ∀ cache tally rest, s.engine ≠ .band cache tally rest) :
    (heatFollowed before after s).engine = s.engine ∧ (heatFollowed before after s).port = s.port
      ∧ (heatFollowed before after s).writer = s.writer := by
  by_cases hhot : s.win.state = .run ∧ (!before && after) = true
  · rw [heatFollowed, if_pos hhot, breakOffHot_outside (by exact h)]
    exact ⟨rfl, rfl, rfl⟩
  · exact heatFollowed_of_not before after s hhot

/-- The operating state aside, a break-off changes the engine, the port and the outcome writer alone. -/
theorem heatFollowed_frame : heatFollowed before after s = { s with
    win := (heatFollowed before after s).win, engine := (heatFollowed before after s).engine
    port := (heatFollowed before after s).port, writer := (heatFollowed before after s).writer } := by
  unfold heatFollowed breakOffHot State.stopBand
  split
  · dsimp only
    split
    · split <;> rfl
    · rfl
  · split <;> rfl

end Followed

/-- R93: the warning condition beginning in the middle of a band. -/
theorem warmInBand_band (cache : List CachedRow) (tally : Nat) (rest : List (Use × Access)) (work : List Entry) :
    warmInBand (.band cache tally rest) work
      = work.map fun e => if e.state = .running then { e with notes := addNote e.notes .warm } else e := rfl

theorem warmInBand_outside {e : Engine} (h : ∀ cache tally rest, e ≠ .band cache tally rest) (work : List Entry) :
    warmInBand e work = work := by
  unfold warmInBand
  split
  · exact absurd rfl (h _ _ _)
  · rfl

theorem runningEntry_warmInBand {e : Engine} {work : List Entry} {x : Entry} (h : runningEntry work = some x)
    (warns : Bool) : ∃ x', runningEntry (if warns then warmInBand e work else work) = some x' ∧ x'.seq = x.seq := by
  cases warns
  · exact ⟨x, h, rfl⟩
  · obtain ⟨cache, tally, rest, rfl⟩ | houtside := e.band_or_not
    · exact ⟨_, runningEntry_mapRunning (f := fun e => { e with notes := noteIf true .warm e.notes }) (fun _ => rfl) h,
        rfl⟩
    · rw [if_pos rfl, warmInBand_outside houtside]
      exact ⟨x, h, rfl⟩

/-- R100, R159: entry to HOT with a band in progress. -/
theorem heatFollowed_breakOff {before after : Bool} {s : State} {cache : List CachedRow} {tally : Nat}
    {rest : List (Use × Access)} (hband : s.engine = .band cache tally rest)
    (hhot : s.win.state = .run ∧ (!before && after) = true) :
    (heatFollowed before after s).port = s.port.ignore Use.isBandRead
      ∧ (s.port.has Use.isBandWrite = true → (heatFollowed before after s).engine = .drain (.abandoned .overheat)
        ∧ (heatFollowed before after s).writer = s.writer)
      ∧ (s.port.has Use.isBandWrite = false → ∀ e, runningEntry s.work = some e →
        (heatFollowed before after s).engine = .outcome ∧ (heatFollowed before after s).writer = { s.writer with
          waiting := s.writer.waiting ++ [.entry e.seq (.abandoned .overheat)] }) := by
  rw [heatFollowed, if_pos hhot, breakOffHot_band (by exact hband)]
  cases hout : s.port.has Use.isBandWrite
  · rw [State.stopBand_ends (by exact hout)]
    refine ⟨rfl, nofun, fun _ e he => ?_⟩
    rw [State.toOutcome_eq (by exact he)]
    exact ⟨rfl, rfl⟩
  · rw [State.stopBand_drains (by exact hout)]
    exact ⟨rfl, fun _ => ⟨rfl, rfl⟩, nofun⟩

theorem exec_temperatureSample (s : State) (milli : Int) :
    exec (.temperatureSample milli) s = .next (thermalSample (milli / 1000) s) := rfl

/-- Settles O53. -/
theorem temperatureSampled : Obligations.TemperatureSampled := by
  intro s milli
  have hthermal := heatFollowed_thermal s.thermal.shutdown (sampleJudged (milli / 1000) s).thermal.shutdown
    (sampleJudged (milli / 1000) s)
  refine ⟨heatFollowed s.thermal.shutdown (sampleJudged (milli / 1000) s).thermal.shutdown
    (sampleJudged (milli / 1000) s), ?_, ?_⟩
  · rw [exec_temperatureSample, thermalSample_eq, followShutdown_eq, exec_pick, hthermal]
    exact apply_ite Host.Outcome.next _ _ _
  rw [hthermal]
  refine ⟨fun hcold => if_pos hcold, fun hlow hhigh => temperatureCode_toNat hlow hhigh, fun hhot => ?_, rfl, rfl, ?_⟩
  · exact (if_neg (by omega)).trans (if_pos hhot)
  intro warns shuts
  refine ⟨?_, heatFollowed_win _ _ _, fun houtside => ?_, fun cache tally rest hband => ⟨?_, fun hstays => ?_,
    fun hrun hshuts => ?_⟩, ?_⟩
  · rw [heatFollowed_sig, sampleJudged]
    dsimp only
    rw [Signalling.follow_shutdown, Signalling.follow_warning]
    rfl
  · have hwork : (sampleJudged (milli / 1000) s).work = s.work := by
      refine (congrArg (ite _ · _) (warmInBand_outside houtside s.work)).trans (ite_self _)
    exact ⟨(heatFollowed_work _ _ _).trans hwork, heatFollowed_outside _ _ (by exact houtside)⟩
  · rw [heatFollowed_work]
    show (if warns then warmInBand s.engine s.work else s.work) = _
    rw [hband, warmInBand_band]
  · refine heatFollowed_of_not _ _ _ fun ⟨hrun, hshuts⟩ => ?_
    obtain hne | hfalse := hstays
    · exact hne hrun
    · exact Bool.false_ne_true (hfalse.symm.trans hshuts)
  · obtain ⟨hport, hdrains, hends⟩ := heatFollowed_breakOff (s := sampleJudged (milli / 1000) s) hband ⟨hrun, hshuts⟩
    refine ⟨hport, fun hout => hdrains (Port.has_eq_true.mpr hout), fun hlast e he => ?_⟩
    obtain ⟨x, hx, hseq⟩ := runningEntry_warmInBand (e := s.engine) he warns
    rw [← hseq]
    exact hends (Port.has_eq_false.mpr hlast) x hx
  · refine (heatFollowed_frame _ _ _).trans ?_
    rw [heatFollowed_work, heatFollowed_sig]
    rfl

end Sys2Proof.Machine

/-! PROOFS. The outcome writer: the acknowledgement of an answer's writes (O42) and the signalling update (O44). -/

namespace Sys2Proof.Machine

theorem withInHand_at {stage : Stage} {s : State} {h : InHand} (hhand : s.writer.inHand = some h)
    (hstage : h.stage = stage) (k : InHand → State → State) : withInHand stage k s = k h s := by
  unfold withInHand
  rw [hhand]
  exact if_pos hstage

/-! ### A write of the answer is acknowledged (O42) -/

theorem exec_outcomeWriteAck {s : State} {tag : Nat} {part : AnswerPart} {h : InHand}
    (hawaits : s.awaitsWrite tag (.answer part)) (hhand : s.writer.inHand = some h) (hstage : h.stage = .writing) :
    exec (.outcomeWriteAck tag) s = .next ((if part = .outcome then answerAcked else issueAnswerWrite) h
      { s with port := s.portWithout tag }) := by
  obtain ⟨pieces, hfind⟩ := hawaits
  refine congrArg Host.Outcome.next ((onReply_live hfind rfl rfl _).trans ?_)
  refine (withInHand_at (s := { s with port := s.portWithout tag }) hhand hstage _).trans ?_
  cases part <;> rfl

/-- An entry that is in the list leaves it, and frees the engine where it is the one served. -/
theorem leaveList_append {pre post : List Entry} {e : Entry} {seq : Count} (he : e.seq = seq)
    (hpre : ∀ x ∈ pre, x.seq ≠ e.seq) (engine : Engine) :
    leaveList (pre ++ e :: post) seq = pre ++ post
      ∧ engineAfter engine (pre ++ e :: post) seq = if e.state = .running then .free else engine := by
  subst he
  have hmiss : ∀ x ∈ pre, ¬ (x.seq == e.seq) = true := fun x hx => by simpa using hpre x hx
  constructor
  · rw [leaveList, List.eraseP_append_right _ hmiss, List.eraseP_cons_of_pos (by simp)]
  · rw [engineAfter, List.find?_append, List.find?_eq_none.mpr hmiss, Option.none_or,
      List.find?_cons_of_pos (by simp), Option.map_some]
    exact if_congr (Option.some_inj) rfl rfl

theorem leaveList_absent {work : List Entry} {seq : Count} (h : ∀ x ∈ work, x.seq ≠ seq) (engine : Engine) :
    leaveList work seq = work ∧ engineAfter engine work seq = engine := by
  have hmiss : ∀ x ∈ work, ¬ (x.seq == seq) = true := fun x hx => by simpa using h x hx
  constructor
  · exact List.eraseP_of_forall_not hmiss
  · rw [engineAfter, List.find?_eq_none.mpr hmiss]
    exact if_neg nofun

/-- R122: an answer whose check advanced the retired count waits for the report block. -/
theorem stage_after_check (now before : Count) : (if (now != before) = true then Stage.reportAsked else .update)
    = if now = before then .update else .reportAsked := by
  by_cases h : now = before <;> simp [h]

theorem met_after_check (now before post : Count) :
    (now != before && now == post) = decide (now ≠ before ∧ now = post) := by
  rw [Bool.decide_and, decide_not]
  rfl

/-- Settles O42. -/
theorem answerAcknowledged : Obligations.AnswerAcknowledged := by
  refine ⟨fun s tag part h hawaits hpart hhand hstage => ?_, fun s tag h hawaits hhand hstage => ?_⟩
  · rw [exec_outcomeWriteAck hawaits hhand hstage, if_neg hpart]
    rfl
  · rw [exec_outcomeWriteAck hawaits hhand hstage, if_pos rfl]
    refine ⟨_, rfl, fun i _ => getLsbD_setFlag _ _, Intake.answered_retired _ _ _, fun hown => ?_, fun hentry => ?_,
      ?_, ?_, rfl⟩
    · exact ⟨if_neg (by rw [hown]; decide), if_neg (by rw [hown]; decide),
        (congrArg (s.intake.install && ·) hown).trans (Bool.and_false _)⟩
    · refine ⟨(congrArg (s.intake.install && ·) hentry).trans (Bool.and_true _), fun habsent => ?_,
        fun pre e post hwork he hpre => ?_⟩
      · obtain ⟨hwork, hengine⟩ := leaveList_absent habsent s.engine
        exact ⟨(if_pos hentry).trans hwork, (if_pos hentry).trans hengine⟩
      · obtain ⟨hleft, hengine⟩ := leaveList_append (post := post) he hpre s.engine
        rw [← hwork] at hleft hengine
        exact ⟨(if_pos hentry).trans hleft, (if_pos hentry).trans hengine⟩
    · exact congrArg₂ (fun stage metPost =>
        ({ s.writer with inHand := some { h with stage, metPost } } : OutcomeWriter))
        (stage_after_check _ _) (met_after_check _ _ _)
    · show s.report.ask (s.working && _) = _
      rw [ReportWriter.ask, State.working_eq_decide, decide_not]
      rfl

/-! ### The signalling update (O44) -/

/-- R138 to R141, as the manual words them. -/
theorem Signalling.update_eq (g : Signalling) (rush : Bool) (outcome : DocketOutcome) (metPost : Bool)
    (retired post : Count) :
    let counted : Signalling :=
      if rush then { g with flags := { g.flags with rush := true } }
      else if outcome = .cancelled ∨ g.grouping = 0 then g
      else if g.counter + 1 = g.grouping then { g with flags := { g.flags with done := true }, counter := 0 }
      else { g with counter := g.counter + 1 }
    g.update rush outcome (metPost || retired == post) =
      if (metPost = true ∨ retired = post) ∧ 0 < counted.counter then
        { counted with flags := { counted.flags with done := true }, counter := 0 }
      else counted := by
  intro counted
  have hcounts : (if outcome ≠ .cancelled ∧ 0 < g.grouping then g.count else g)
      = if outcome = .cancelled ∨ g.grouping = 0 then g
        else if g.counter + 1 = g.grouping then { g with flags := { g.flags with done := true }, counter := 0 }
        else { g with counter := g.counter + 1 } := by
    by_cases h : outcome = .cancelled ∨ g.grouping = 0
    · rw [if_pos h, if_neg]
      rintro ⟨hne, hpos⟩
      exact h.elim hne (by omega)
    · obtain ⟨hne, hpos⟩ := not_or.mp h
      rw [if_neg h, if_pos ⟨hne, Nat.pos_of_ne_zero hpos⟩]
      rfl
  have hcounted : (if rush then { g with flags := { g.flags with rush := true } }
      else if outcome ≠ .cancelled ∧ 0 < g.grouping then g.count else g) = counted := by
    rw [hcounts]
  rw [Signalling.update, hcounted]
  refine if_congr (and_congr_left' ?_) rfl rfl
  rw [Bool.or_eq_true, beq_iff_eq]

/-- The state after the update, before the completion check of a cancel. -/
def answerSignalled (h : InHand) (s : State) : State := { s with
  sig := s.sig.update h.answer.rush h.answer.outcome (h.metPost || s.intake.retired == s.win.post)
  writer := { s.writer with inHand := none }
  intake := { s.intake with phase := if h.ofEntry then s.intake.phase else .idle } }

theorem signalAnswer_eq (h : InHand) (s : State) : signalAnswer h s = (answerSignalled h s).cancelCheck := by
  unfold signalAnswer answerSignalled
  cases h.ofEntry <;> rfl

theorem exec_signallingUpdate {s : State} {h : InHand} (hhand : s.writer.inHand = some h) (hstage : h.stage = .update) :
    exec .signallingUpdate s = .next (answerSignalled h s).cancelCheck :=
  congrArg Host.Outcome.next ((withInHand_at hhand hstage _).trans (signalAnswer_eq h s))

/-- Settles O44. -/
theorem signallingUpdate : Obligations.SignallingUpdate := by
  intro s h hhand hstage g counted flushed t
  have hsignalled : answerSignalled h s = t := by
    rw [answerSignalled, Signalling.update_eq]
  rw [exec_signallingUpdate hhand hstage, hsignalled]
  refine ⟨fun hnone => congrArg _ (State.cancelCheck_of_none (s := t) hnone), fun c hc => ⟨?_, fun hopen => ?_⟩⟩
  · intro hworking htaken hphase hwork hengine hwaiting
    have hsettled : t.cancelSettled c.boundary = true := (State.cancelSettled_iff _ _).mpr
      ⟨htaken, hphase, hwork, hengine, congrArg (fun w => ({ inHand := none, waiting := w } : OutcomeWriter)) hwaiting⟩
    rw [State.cancelCheck_settled (s := t) hc hworking hsettled, ← s.working_eq_decide]
    rfl
  · refine congrArg _ (State.cancelCheck_open (s := t) hc fun ⟨hworking, hsettled⟩ => ?_)
    obtain ⟨htaken, hphase, hwork, hengine, hwriter⟩ := (State.cancelSettled_iff _ _).mp hsettled
    obtain hne | hne | hne | hne | hne | hne := hopen
    exacts [hne hworking, hne htaken, hne hphase, hne hwork, hne hengine, hne (congrArg OutcomeWriter.waiting hwriter)]

end Sys2Proof.Machine

/-! PROOFS. What the part writes to memory: the report block (O45) and the answers (O41), each field where section 6.9
lays it. -/

namespace Sys2Proof.Machine

/-- The last field of a record. -/
theorem fieldAt_last (n v : Nat) : fieldAt (leBytes n v) 0 n = v % 256 ^ n := by
  have h := fieldAt_leBytes n v []
  rwa [List.append_nil] at h

/-! ### The report block (O45) -/

theorem exec_reportWriteTakeUp (s : State) : exec .reportWriteTakeUp s = .next (
    if s.working && !s.report.writing && s.report.pending then takeUpReport s else s) := rfl

theorem Stage.onTakeUp_eq (x : Stage) : x.onTakeUp = if x = .reportAsked then .reportCarried else x := by
  cases x <;> rfl

theorem Stage.onReportAck_eq (x : Stage) : x.onReportAck = if x = .reportCarried then .update else x := by
  cases x <;> rfl

theorem CancelStage.onTakeUp_eq (x : CancelStage) :
    x.onTakeUp = if x = .reportAsked then .reportCarried else x := by cases x <;> rfl

theorem CancelStage.onReportAck_eq (x : CancelStage) :
    x.onReportAck = if x = .reportCarried then .reported else x := by cases x <;> rfl

theorem takeUpReport_eq (s : State) :
    let seq := s.report.seq + 1
    let seqBytes : List Byte := [seq.extractLsb' 0 8, seq.extractLsb' 8 8]
    let base := s.win.xbase.toNat + 256
    takeUpReport s = { s with
      report := { seq, writing := true, pending := false }
      port := s.port.issueAll [(.report .leading, .write [(base, seqBytes)]),
        (.report .body, .write [(base + 2, reportBody s)]),
        (.report .trailing, .write [(base + 252, seqBytes ++ [0, 0])])]
      writer := { s.writer with inHand := s.writer.inHand.map fun h =>
        { h with stage := if h.stage = .reportAsked then .reportCarried else h.stage } }
      win := { s.win with cancel := s.win.cancel.map fun c =>
        { c with stage := if c.stage = .reportAsked then .reportCarried else c.stage } } } := by
  intro seq seqBytes base
  simp only [← Stage.onTakeUp_eq, ← CancelStage.onTakeUp_eq]
  have hwrites : reportWrites s.win.xbase seq (reportBody s) = [(.report .leading, .write [(base, seqBytes)]),
      (.report .body, .write [(base + 2, reportBody s)]),
      (.report .trailing, .write [(base + 252, seqBytes ++ [0, 0])])] := by
    rw [reportWrites, leBytes_two]
    rfl
  rw [← hwrites]
  rfl

theorem exec_reportWriteAck {s : State} {tag : Nat} {part : ReportPart} (h : s.awaitsWrite tag (.report part)) :
    exec (.reportWriteAck tag) s = .next (if part = .trailing then reportAcked { s with port := s.portWithout tag }
      else { s with port := s.portWithout tag }) := by
  obtain ⟨pieces, hfind⟩ := h
  refine congrArg Host.Outcome.next ((onReply_live hfind rfl rfl _).trans ?_)
  cases part <;> rfl

theorem reportAcked_eq (s : State) : reportAcked s = { s with
    report := { s.report with writing := false }
    writer := { s.writer with inHand := s.writer.inHand.map fun h =>
      { h with stage := if h.stage = .reportCarried then .update else h.stage } }
    win := { s.win with cancel := s.win.cancel.map fun c =>
      { c with stage := if c.stage = .reportCarried then .reported else c.stage } } } := by
  simp only [← Stage.onReportAck_eq, ← CancelStage.onReportAck_eq]
  rfl

theorem reportBody_length (s : State) : (reportBody s).length = 250 := by
  simp only [reportBody, List.length_append, leBytes_length, List.length_replicate]

section Body
variable (s : State)

/-- R130: the counts and the tap's fields of the report block. -/
theorem reportBody_counts : fieldAt (reportBody s) 0 2 = s.intake.retired.toNat
    ∧ fieldAt (reportBody s) 2 2 = s.intake.taken.toNat
    ∧ fieldAt (reportBody s) 16 2 = s.tap.dropped.toNat ∧ fieldAt (reportBody s) 18 2 = s.tap.duplicates.toNat
    ∧ fieldAt (reportBody s) 20 2 = s.tap.glitches.toNat := by
  have word (x : BitVec 16) : x.toNat % 65536 = x.toNat := Nat.mod_eq_of_lt x.isLt
  refine ⟨?_, ?_, ?_, ?_, ?_⟩ <;> simp [reportBody, fieldAt_skip, fieldAt_leBytes, word]

theorem reportBody_ident :
    fieldAt (reportBody s) 4 2 = (s.tap.current.getD { model := 0, ext := 0 }).model % 65536
    ∧ fieldAt (reportBody s) 6 1 = (s.tap.current.getD { model := 0, ext := 0 }).ext % 256 := by
  constructor <;> simp [reportBody, fieldAt_skip, fieldAt_leBytes]

theorem reportBody_bytes (hlog : s.tap.log.length ≤ 64) : fieldAt (reportBody s) 7 1 = s.tap.epoch.toNat
    ∧ fieldAt (reportBody s) 8 1 = s.tap.log.length ∧ fieldAt (reportBody s) 9 1 = (if s.tap.quiet then 1 else 0)
    ∧ fieldAt (reportBody s) 22 1 = s.thermal.code.toNat := by
  have byte (x : BitVec 8) : x.toNat % 256 = x.toNat := Nat.mod_eq_of_lt x.isLt
  have hquiet : s.tap.quiet.toNat % 256 = if s.tap.quiet then 1 else 0 := by cases s.tap.quiet <;> rfl
  refine ⟨?_, ?_, ?_, ?_⟩ <;> simp [reportBody, fieldAt_skip, fieldAt_leBytes, byte, hquiet]
  omega

theorem reportBody_timebase : fieldAt (reportBody s) 26 4 = s.tap.timebase.toNat := by
  have long (x : BitVec 32) : x.toNat % 4294967296 = x.toNat := Nat.mod_eq_of_lt x.isLt
  simp [reportBody, fieldAt_skip, fieldAt_leBytes, long]

/-- R123: the newest sample of the log, and zeros for an empty log. -/
theorem reportBody_newest :
    fieldAt (reportBody s) 10 4 = ((s.tap.log.getLast?.map fun x => x.stamp.toNat).getD 0) % 4294967296
    ∧ fieldAt (reportBody s) 14 2 = ((s.tap.log.getLast?.map Sample.focal).getD 0) % 65536 := by
  constructor <;> simp [reportBody, fieldAt_skip, fieldAt_leBytes]

theorem reportBody_zero {i : Nat} (h : (23 ≤ i ∧ i < 26) ∨ (30 ≤ i ∧ i < 250)) : (reportBody s)[i]? = some 0 := by
  rw [reportBody]
  obtain ⟨hlow, hhigh⟩ | ⟨hlow, hhigh⟩ := h
  · rw [List.getElem?_append_left (by simp; omega), List.getElem?_append_left (by simp; omega),
      List.getElem?_append_right (by simp; omega), leBytes_getElem? _ _ (by simp; omega), Nat.zero_div]
    rfl
  · rw [List.getElem?_append_right (by simp; omega)]
    exact List.getElem?_replicate_of_lt (by simp; omega)

end Body

/-- Settles O45. -/
theorem reportBlockWrites : Obligations.ReportBlockWrites := by
  refine ⟨fun s hw hwriting hpending hlog => ?_, fun s tag h => ?_, fun s tag part h hpart => ?_, fun s h => ?_⟩
  · intro seq seqBytes base id
    have htaken : (s.working && !s.report.writing && s.report.pending) = true := by
      rw [s.working_iff.mpr hw, hwriting, hpending]
      rfl
    obtain ⟨hretired, htakenCount, hdropped, hduplicates, hglitches⟩ := reportBody_counts s
    obtain ⟨hmodel, hext⟩ := reportBody_ident s
    obtain ⟨hepoch, hlength, hquiet, hcode⟩ := reportBody_bytes s hlog
    obtain ⟨hstamp, hfocal⟩ := reportBody_newest s
    refine ⟨reportBody s, ?_, reportBody_length s, hretired, htakenCount, hmodel, hext, hepoch, hlength, hquiet,
      fun hnil => ?_, fun x hx => ?_, hdropped, hduplicates, hglitches, hcode, reportBody_timebase s,
      fun i hi => reportBody_zero s hi⟩
    · rw [exec_reportWriteTakeUp, if_pos htaken, takeUpReport_eq]
    · rw [hstamp, hfocal, hnil]
      exact ⟨rfl, rfl⟩
    · rw [hstamp, hfocal, hx]
      exact ⟨Nat.mod_eq_of_lt x.stamp.isLt, rfl⟩
  · rw [exec_reportWriteAck h, if_pos rfl, reportAcked_eq]
  · rw [exec_reportWriteAck h, if_neg hpart]
  · rw [exec_reportWriteTakeUp, if_neg]
    rintro hall
    simp only [Bool.and_eq_true, Bool.not_eq_true', State.working_iff] at hall
    obtain ⟨⟨hw, hidle⟩, hpending⟩ := hall
    obtain hstate | hstate | hwriting | hnone := h
    · simp [hstate] at hw
    · simp [hstate] at hw
    · exact Bool.false_ne_true (hidle.symm.trans hwriting)
    · exact Bool.false_ne_true (hnone.symm.trans hpending)

/-! ### Answers taken up (O41) -/

theorem leBytes_one (v : Nat) : leBytes 1 v = [BitVec.ofNat 8 v] := rfl

theorem docketAddr_eq (xbase : BitVec 32) (seq : Count) :
    docketAddr xbase seq = xbase.toNat + 4096 + 256 * (seq.toNat % 64) := rfl

theorem getLsbD_addNote (notes : BitVec 16) (n : Note) (i : Nat) :
    (addNote notes n).getLsbD i = (notes.getLsbD i || decide (i = n.bit)) := by
  have hbit : n.bit < 16 := by cases n <;> decide
  rw [addNote, BitVec.getLsbD_or, BitVec.getLsbD_shiftLeft, BitVec.getLsbD_one]
  congr 1
  by_cases hi : i = n.bit
  · simp [hi, hbit]
  · by_cases hlt : i < n.bit
    · simp [hi, hlt]
    · have hpos : i - n.bit ≠ 0 := by omega
      simp [hi, hpos]

theorem exec_outcomeTakeUp (s : State) : exec .outcomeTakeUp s = .next (if s.working then takeUpAnswer s else s) := rfl

/-- R97: nothing waits, or the writer is not free. -/
theorem takeUpAnswer_nothing {s : State} (h : s.writer.inHand ≠ none ∨ s.writer.waiting = []) : takeUpAnswer s = s := by
  unfold takeUpAnswer
  split
  · next hfree hwaiting =>
    obtain hbusy | hnil := h
    · exact absurd hfree hbusy
    · rw [hnil] at hwaiting
      cases hwaiting
  · rfl

theorem takeUpAnswer_takes {s : State} {next : WaitingAnswer} {rest : List WaitingAnswer} {a : Answer} {ofEntry : Bool}
    (hfree : s.writer.inHand = none) (hwaiting : s.writer.waiting = next :: rest)
    (htaken : takenAnswer s next = some (a, ofEntry)) : takeUpAnswer s = issueAnswerWrite
      { answer := a, ofEntry, stage := .writing, metPost := false, unissued := answerWrites s.win.xbase a }
      { s with writer := { inHand := none, waiting := rest } } := by
  unfold takeUpAnswer
  rw [hfree, hwaiting]
  dsimp only
  rw [htaken]

/-- R95: the result fields of an entry. -/
theorem entryResults_fields (e : Entry) (completion : Stamp) : ∃ fixed tail : List Byte,
    entryResults e completion = [(128, fixed), (140, tail)] ∧ fixed.length = 10 ∧ tail.length = 8
      ∧ fieldAt fixed 0 2 = (e.result.ident.getD { model := 0, ext := 0 }).model % 65536
      ∧ fieldAt fixed 2 1 = (e.result.ident.getD { model := 0, ext := 0 }).ext % 256
      ∧ fieldAt fixed 3 1 = (e.result.slot.getD 255) % 256
      ∧ fieldAt fixed 4 2 = e.result.focal % 65536
      ∧ fieldAt fixed 6 1 = ((e.result.stations.map Prod.fst).getD 255) % 256
      ∧ fieldAt fixed 7 1 = ((e.result.stations.map Prod.snd).getD 255) % 256
      ∧ fieldAt fixed 8 1 = e.result.weight % 256 ∧ fieldAt fixed 9 1 = e.nextBand % 256
      ∧ fieldAt tail 0 4 = completion.toNat ∧ fieldAt tail 4 4 = e.border % 4294967296 := by
  have hstamp : completion.toNat % 4294967296 = completion.toNat := Nat.mod_eq_of_lt completion.isLt
  refine ⟨_, _, rfl, ?_, ?_, ?_, ?_, ?_, ?_, ?_, ?_, ?_, ?_, ?_, ?_⟩ <;>
    simp [orNone, fieldAt_skip, fieldAt_leBytes, fieldAt_last, hstamp]

/-- Settles O41. -/
theorem answerTakenUp : Obligations.AnswerTakenUp := by
  refine ⟨by decide, by decide, fun x hx notes => ?_, fun s next rest hw hfree hwaiting => ?_, fun s h => ?_⟩
  · have hbit : x.1.bit = x.2 := by
      revert x
      decide
    rw [← hbit]
    exact ⟨rfl, getLsbD_addNote notes x.1⟩
  · intro takenUp
    have hworking := s.working_iff.mpr hw
    have begun {a : Answer} {ofEntry : Bool} (htaken : takenAnswer s next = some (a, ofEntry)) :
        exec .outcomeTakeUp s = .next (takenUp a ofEntry) := by
      rw [exec_outcomeTakeUp, if_pos hworking, takeUpAnswer_takes hfree hwaiting htaken]
      refine congrArg (fun writes : List (Use × Access) => Host.Outcome.next (φ := Fault) (ρ := Refusal) { s with
        writer := { inHand := some { answer := a, ofEntry, stage := .writing, metPost := false
                                     unissued := writes.drop 1 }
                    waiting := rest }
        port := s.port.issueAll (writes.take 1) }) ?_
      obtain ⟨seq, kind, rush, outcome, reason, notes, results⟩ := a
      cases reason <;> cases notes <;> cases results <;>
        simp [answerWrites, writeUnlessEmpty, reasonNotesPieces, resultPieces, outcomePieces, leBytes_two,
          leBytes_one, docketAddr_eq]
    refine ⟨fun a ha => begun (by rw [ha]; rfl), fun seq v e hnext hfound => ?_⟩
    have htaken : takenAnswer s next = some (entryAnswer e v s.tap.timebase, true) := by
      rw [hnext]
      exact congrArg (Option.map _) hfound
    have hseq : e.seq = seq := by simpa using List.find?_some hfound
    exact ⟨_, begun htaken, hseq, rfl, rfl, rfl, by cases v <;> rfl, by cases v <;> rfl,
      entryResults_fields e s.tap.timebase⟩
  · rw [exec_outcomeTakeUp]
    have nothing (h : s.writer.inHand ≠ none ∨ s.writer.waiting = []) :
        (if s.working then takeUpAnswer s else s) = s := by rw [takeUpAnswer_nothing h, ite_self]
    have idle (h : s.win.state = .setup ∨ s.win.state = .halted) :
        (if s.working then takeUpAnswer s else s) = s := if_neg (by rw [State.working_of_idle h]; decide)
    obtain h | h | h | h := h
    exacts [congrArg _ (idle (.inl h)), congrArg _ (idle (.inr h)), congrArg _ (nothing (.inl h)),
      congrArg _ (nothing (.inr h))]

end Sys2Proof.Machine

/-! PROOFS. The remap of a band (sections 4.1, 4.4 and 4.5): frames with an all-zero curve (O25), what a band depends on
(O26), and its rows and addresses (O27). -/

namespace Sys2Proof.Machine

/-! ### An all-zero curve (O25) -/

theorem getD_replicate_zero (n i : Nat) : (List.replicate n (0 : Int)).getD i 0 = 0 := by
  rw [List.getD_eq_getElem?_getD, List.getElem?_replicate]
  split <;> rfl

theorem deltaAt_zeroCurve (u : Nat) : deltaAt (List.replicate 65 0) u = 0 := by
  by_cases hend : u / 128 = 64
  · rw [deltaAt_of_div_eq hend, getD_replicate_zero]
  · rw [deltaAt_of_div_ne hend, getD_replicate_zero, getD_replicate_zero, sub_zero, zero_mul, nearestAway_zero,
      add_zero]

/-- R77: with no delta a pixel looks at its own place, whatever the centre. -/
theorem sourcePos_zeroCurve {e : Entry} {c : Channel} (h : e.curve.get c = List.replicate 65 0) (p : Params)
    (xo yo : Nat) : sourcePos e p c xo yo
      = (16 * e.geo.k * xo + 8 * ((e.geo.k : Int) - 1), 16 * e.geo.k * yo + 8 * ((e.geo.k : Int) - 1)) := by
  simp only [sourcePos, h, deltaAt_zeroCurve, scaled_zero, sensorPos]
  exact Prod.ext (by dsimp only; ring) (by dsimp only; ring)

/-- Along one axis a pixel of the output stays `8 (k + 1)` sixteenths short of the input's end. -/
theorem axis_inside {k o n : Nat} (hk : 1 ≤ k) (ho : o < n / k) :
    (0 : Int) ≤ 16 * k * o + 8 * ((k : Int) - 1) ∧ 16 * (k : Int) * o + 8 * ((k : Int) - 1) ≤ 16 * ((n : Int) - 1) := by
  have hpixels : (o + 1) * k ≤ n := (Nat.le_div_iff_mul_le hk).mp ho
  have hproduct : (0 : Int) ≤ k * o := by positivity
  zify at hpixels hk
  constructor <;> nlinarith

theorem clampIndex_of_lt {n i : Nat} (h : i < n) : clampIndex n (i : Int) = i := by
  unfold clampIndex clampInt
  omega

/-- R74 at a position inside the cell of the samples `i` and `j`. -/
theorem bilinear_cell {g : Geometry} (input : Nat → Nat → Nat) {i j fx fy : Nat} (hx : fx < 16) (hy : fy < 16)
    {q : Int × Int} (hqx : q.1 = 16 * i + fx) (hqy : q.2 = 16 * j + fy) (hi : i < g.w) (hj : j < g.h) :
    bilinear g input q = ((16 - fx) * (16 - fy) * input i j + fx * (16 - fy) * input (clampIndex g.w (i + 1)) j
      + (16 - fx) * fy * input i (clampIndex g.h (j + 1))
      + fx * fy * input (clampIndex g.w (i + 1)) (clampIndex g.h (j + 1)) + 128) / 256 := by
  have hix : q.1 / 16 = i := by omega
  have hiy : q.2 / 16 = j := by omega
  have hfx : (q.1 % 16).toNat = fx := by omega
  have hfy : (q.2 % 16).toNat = fy := by omega
  simp only [bilinear, hix, hiy, hfx, hfy, clampIndex_of_lt hi, clampIndex_of_lt hj]

/-- R77: in the middle of a cell the sample is the rounded mean of its four corners. -/
theorem bilinear_middle {g : Geometry} (input : Nat → Nat → Nat) {i j : Nat} {q : Int × Int} (hqx : q.1 = 16 * i + 8)
    (hqy : q.2 = 16 * j + 8) (hi : i + 1 < g.w) (hj : j + 1 < g.h) :
    bilinear g input q = (input i j + input (i + 1) j + input i (j + 1) + input (i + 1) (j + 1) + 2) / 4 := by
  rw [bilinear_cell input (fx := 8) (fy := 8) (by decide) (by decide) hqx hqy (by omega) (by omega)]
  have hi' := clampIndex_of_lt hi
  have hj' := clampIndex_of_lt hj
  push_cast at hi' hj'
  rw [hi', hj']
  omega

theorem mem_bandPixels {g : Geometry} {b xo yo : Nat} :
    (xo, yo) ∈ bandPixels g b ↔ yo ∈ bandRows g b ∧ xo < g.wo := by
  simp [bandPixels]

/-- Settles O25. -/
theorem zeroCurveFrames : Obligations.ZeroCurveFrames := by
  refine ⟨fun e p hcurve hk _ _ => ?_, fun p seq f id focal notes c => zeroCurve_get c⟩
  have hpos : 1 ≤ e.geo.k := by omega
  have hinside (c : Channel) (xo yo : Nat) (hx : xo < e.geo.wo) (hy : yo < e.geo.ho) :
      inside e.geo (sourcePos e p c xo yo) = true := by
    rw [sourcePos_zeroCurve (hcurve c), inside_iff]
    obtain ⟨hxlow, hxhigh⟩ := axis_inside hpos hx
    obtain ⟨hylow, hyhigh⟩ := axis_inside hpos hy
    exact ⟨hxlow, hxhigh, hylow, hyhigh⟩
  have hborder (xo yo : Nat) (hx : xo < e.geo.wo) (hy : yo < e.geo.ho) : borderPixel e p xo yo = false := by
    rw [Bool.eq_false_iff, ne_eq, borderPixel_iff]
    rintro ⟨c, hout⟩
    exact Bool.false_ne_true (hout.symm.trans (hinside c xo yo hx hy))
  refine ⟨fun c xo yo hx hy => ⟨sourcePos_zeroCurve (hcurve c) p xo yo, hinside c xo yo hx hy, hborder xo yo hx hy,
    fun input => ?_⟩, fun b => ?_⟩
  · have hfit {o n : Nat} (ho : o < n / e.geo.k) : (o + 1) * e.geo.k ≤ n := (Nat.le_div_iff_mul_le hpos).mp ho
    have hxfit := hfit hx
    have hyfit := hfit hy
    rw [outSample_of_sampled ((sampled_iff e _).mpr (.inl (hinside c xo yo hx hy))), sourcePos_zeroCurve (hcurve c)]
    refine ⟨fun h1 => ?_, fun h2 => ?_, fun h4 => ?_⟩
    · rw [h1] at hxfit hyfit ⊢
      rw [bilinear_cell input (i := xo) (j := yo) (fx := 0) (fy := 0) (by decide) (by decide)
        (by push_cast; ring) (by push_cast; ring) (by omega) (by omega)]
      congr 1
      omega
    · rw [h2] at hxfit hyfit ⊢
      rw [bilinear_middle input (i := 2 * xo) (j := 2 * yo) (by push_cast; ring) (by push_cast; ring) (by omega)
        (by omega)]
    · rw [h4] at hxfit hyfit ⊢
      rw [bilinear_middle input (i := 4 * xo + 1) (j := 4 * yo + 1) (by push_cast; ring) (by push_cast; ring)
        (by omega) (by omega)]
  · rw [bandTally, List.countP_eq_zero]
    rintro ⟨xo, yo⟩ hmem
    obtain ⟨hrow, hx⟩ := mem_bandPixels.mp hmem
    obtain ⟨-, -, hy⟩ := mem_bandRows.mp hrow
    exact Bool.eq_false_iff.mp (hborder xo yo hx hy)

/-! ### The frozen parts (O26) -/

section Frozen
variable {e e' : Entry} {p p' : Params} (hcurve : e.curve = e'.curve) (hcx : e.cx = e'.cx) (hcy : e.cy = e'.cy)
  (hgeo : e.geo = e'.geo) (hwl : e.wl = e'.wl) (hedge : e.edge = e'.edge) (hfill : e.fill = e'.fill)
  (hwf : p.wf = p'.wf) (hhf : p.hf = p'.hf)

include hcurve hcx hcy hgeo hwf hhf in
theorem sourcePos_congr : sourcePos e p = sourcePos e' p' := by
  funext c xo yo
  simp only [sourcePos, normRadius, radiusSq, hcurve, hcx, hcy, hgeo, hwf, hhf]

include hgeo in
theorem bandTally_congr (hpos : sourcePos e p = sourcePos e' p') (b : Nat) : bandTally e p b = bandTally e' p' b := by
  simp only [bandTally, borderPixel, hgeo, hpos]

include hgeo hedge in
theorem sampled_congr (q : Int × Int) : sampled e q = sampled e' q := by
  rw [sampled, sampled, hgeo, hedge]

include hgeo hedge in
theorem neededRows_congr (hpos : sourcePos e p = sourcePos e' p') (c : Channel) (b : Nat) :
    neededRows e p c b = neededRows e' p' c b := by
  have hused : usedRows e p c b = usedRows e' p' c b := by
    simp only [usedRows, neighbourRows, hpos, sampled_congr hgeo hedge, hgeo]
  rw [neededRows, neededRows, hused]

include hgeo hwl hedge hfill in
theorem outRow_congr (hpos : sourcePos e p = sourcePos e' p') (cache : List CachedRow) (c : Channel) (yo : Nat) :
    outRow e p cache c yo = outRow e' p' cache c yo := by
  simp only [outRow, outSample, hpos, sampled_congr hgeo hedge, hgeo, hwl, hfill]

end Frozen

/-- Settles O26. -/
theorem bandDependsOnFrozenParts : Obligations.BandDependsOnFrozenParts := by
  intro e e' p p' cache b hcurve hcx hcy hgeo hwl hedge hfill hwf hhf
  have hpos := sourcePos_congr hcurve hcx hcy hgeo hwf hhf
  refine ⟨?_, ?_, bandTally_congr hgeo hpos b⟩
  · simp only [bandReads, neededRows_congr hgeo hedge hpos, hgeo]
  · simp only [bandWrites, outRow_congr hgeo hwl hedge hfill hpos, hgeo]

/-! ### Rows and addresses (O27) -/

theorem mem_neighbourRows {e : Entry} (hh : 1 ≤ e.geo.h) {p : Params} {c : Channel} {xo yo r : Nat} :
    r ∈ neighbourRows e p c xo yo ↔
      (inside e.geo (sourcePos e p c xo yo) = true ∨ e.edge = .edge)
        ∧ ((r : Int) = max 0 (min ((e.geo.h : Int) - 1) ((sourcePos e p c xo yo).2 / 16))
          ∨ (r : Int) = max 0 (min ((e.geo.h : Int) - 1) ((sourcePos e p c xo yo).2 / 16 + 1))) := by
  rw [← sampled_iff, ← clampIndex_cast hh, ← clampIndex_cast hh, neighbourRows]
  split
  · next hsampled => simp [hsampled]
  · next hsampled => simp [hsampled]

theorem neighbourRows_lt {e : Entry} (hh : 1 ≤ e.geo.h) {p : Params} {c : Channel} {xo yo r : Nat}
    (hr : r ∈ neighbourRows e p c xo yo) : r < e.geo.h := by
  obtain ⟨-, hrow | hrow⟩ := (mem_neighbourRows hh).mp hr <;> omega

theorem mem_usedRows {e : Entry} {p : Params} {c : Channel} {b r : Nat} : r ∈ usedRows e p c b ↔
    ∃ xo yo, yo ∈ bandRows e.geo b ∧ xo < e.geo.wo ∧ r ∈ neighbourRows e p c xo yo := by
  simp only [usedRows, List.mem_flatMap, Prod.exists, mem_bandPixels, and_assoc]

/-- R78: the needed rows are all those between two used ones. -/
theorem mem_neededRows {e : Entry} {p : Params} {c : Channel} {b r : Nat} : r ∈ neededRows e p c b ↔
    (∃ lo, lo ∈ usedRows e p c b ∧ lo ≤ r) ∧ ∃ hi, hi ∈ usedRows e p c b ∧ r ≤ hi := by
  unfold neededRows
  split
  · next lo hi hmin hmax =>
    obtain ⟨hlo, hleast⟩ := List.min?_eq_some_iff.mp hmin
    obtain ⟨hhi, hgreatest⟩ := List.max?_eq_some_iff.mp hmax
    simp only [List.mem_map, List.mem_range]
    constructor
    · rintro ⟨i, hi', rfl⟩
      exact ⟨⟨lo, hlo, by omega⟩, hi, hhi, by omega⟩
    · rintro ⟨⟨lo', hlo', hbelow⟩, hi', hhi', habove⟩
      have := hleast lo' hlo'
      have := hgreatest hi' hhi'
      exact ⟨r - lo, by omega, by omega⟩
  · next hnone =>
    refine ⟨fun h => (List.not_mem_nil h).elim, fun ⟨⟨lo, hlo, _⟩, _⟩ => ?_⟩
    have hne := List.ne_nil_of_mem hlo
    obtain ⟨m, hm⟩ := Option.ne_none_iff_exists'.mp (mt List.min?_eq_none_iff.mp hne)
    obtain ⟨M, hM⟩ := Option.ne_none_iff_exists'.mp (mt List.max?_eq_none_iff.mp hne)
    exact absurd hM (hnone m M hm)

theorem nodup_neededRows (e : Entry) (p : Params) (c : Channel) (b : Nat) : (neededRows e p c b).Nodup := by
  unfold neededRows
  split
  · exact List.nodup_range.map (add_right_injective _)
  · exact List.nodup_nil

theorem mem_bandReads {e : Entry} {p : Params} {b : Nat} {x : Use × Access} : x ∈ bandReads e p b ↔
    ∃ (c : Channel) (r : Nat), r ∈ neededRows e p c b
      ∧ x = (.bandRead c r, .read (e.geo.inAddr.get c + e.geo.inPitch * r) (2 * e.geo.w)) := by
  have hall : ∀ c : Channel, c ∈ [Channel.red, .green, .blue] := fun c => by cases c <;> decide
  simp only [bandReads, List.mem_flatMap, List.mem_map, hall, true_and, eq_comm]

/-- Each read names its channel and row, so no two are the same. -/
theorem nodup_bandReads (e : Entry) (p : Params) (b : Nat) : (bandReads e p b).Nodup := by
  refine List.nodup_flatMap.mpr ⟨fun c _ => (nodup_neededRows e p c b).map fun r r' hsame => ?_, ?_⟩
  · cases hsame
    rfl
  · refine List.Pairwise.imp_of_mem (fun {c c'} _ _ hne x hx hx' => ?_)
      (show [Channel.red, .green, .blue].Pairwise (· ≠ ·) by decide)
    obtain ⟨r, -, rfl⟩ := List.mem_map.mp hx
    obtain ⟨r', -, hsame⟩ := List.mem_map.mp hx'
    cases hsame
    exact hne rfl

theorem pairwise_bandRows (g : Geometry) (b : Nat) : (bandRows g b).Pairwise (· < ·) := by
  rw [bandRows, List.pairwise_map]
  exact List.pairwise_lt_range.imp fun h => Nat.add_lt_add_left h _

/-- A whole row of a plane lies within the plane's extent. -/
theorem row_within {pitch r n size : Nat} (h : r < n) (addr : Nat) :
    addr + pitch * r + size ≤ addr + (pitch * (n - 1) + size) := by
  have hrow : pitch * r ≤ pitch * (n - 1) := Nat.mul_le_mul_left _ (by omega)
  omega

theorem outRow_length (e : Entry) (p : Params) (cache : List CachedRow) (c : Channel) (yo : Nat) :
    (outRow e p cache c yo).length = 2 * e.geo.wo := by
  simp [outRow, List.length_flatMap, Nat.mul_comm]

/-- Settles O27. -/
theorem bandRowsAndAddresses : Obligations.BandRowsAndAddresses := by
  intro e p b hh
  refine ⟨fun yo => mem_bandRows, fun c xo yo r => mem_neighbourRows hh, fun c => ⟨fun r => ?_, fun r hr => ?_⟩,
    nodup_bandReads e p b, fun x => mem_bandReads, pairwise_bandRows e.geo b, fun cache => ⟨rfl, fun c yo hyo => ?_⟩⟩
  · simp only [mem_neededRows, mem_usedRows]
  · obtain ⟨-, hi, hhi, hle⟩ := mem_neededRows.mp hr
    obtain ⟨xo, yo, -, -, hmem⟩ := mem_usedRows.mp hhi
    have hrow : r < e.geo.h := hle.trans_lt (neighbourRows_lt hh hmem)
    exact ⟨hrow, row_within hrow _⟩
  · obtain ⟨-, -, hy⟩ := mem_bandRows.mp hyo
    have hlength := outRow_length e p cache c yo
    exact ⟨hlength, hlength ▸ row_within hy _⟩

end Sys2Proof.Machine

/-! PROOFS. The resolver (chapter 3): the frame curve's clamp (O17) and where a resolution leads (O19). -/

namespace Sys2Proof.Machine

/-! ### The frame curve (O17) -/

/-- R54: no weight is above 256. -/
theorem chooseFrom_weight_le {f : Nat} (j : Nat) {stations : List Station}
    (hhead : ∀ x, stations.head? = some x → x.focal ≤ f) : (chooseFrom f j stations).weight ≤ 256 := by
  induction stations generalizing j with
  | nil => exact Nat.zero_le _
  | cons x rest ih =>
    cases rest with
    | nil => exact Nat.zero_le _
    | cons y rest =>
      rw [chooseFrom_cons_cons]
      split
      · exact Nat.zero_le _
      · have hx : x.focal ≤ f := hhead x rfl
        split
        · next hne hlt => exact (blendWeight_lt (by omega) hlt).le
        · next hne hge =>
          refine ih (j + 1) fun z hz => ?_
          cases hz
          omega

theorem chooseStations_weight_le (f : Nat) (stations : List Station) : (chooseStations f stations).weight ≤ 256 := by
  unfold chooseStations
  split
  · split
    · exact Nat.zero_le _
    · next hge =>
      refine chooseFrom_weight_le 0 fun z hz => ?_
      cases hz
      omega
  · exact Nat.zero_le _

/-- R52: whatever the index, a station's value is within the range of a knot's. -/
theorem ProfileOk.stationValue_range {p : Profile} (h : ProfileOk p) (j : Nat) (c : Channel) (u : Nat) :
    -16384 ≤ stationValue p.stations j c u ∧ stationValue p.stations j c u ≤ 16383 := by
  obtain ⟨-, -, -, -, hstations, -⟩ := h
  cases hj : p.stations[j]? with
  | none =>
    rw [stationValue, hj]
    show (-16384 : Int) ≤ 0 ∧ (0 : Int) ≤ 16383
    decide
  | some x =>
    obtain ⟨-, -, hknots⟩ := hstations x (List.mem_of_getElem? hj)
    rw [stationValue_of_getElem? hj]
    exact hknots.evalKnots_range c u

/-- R54: the blended value is within it too. -/
theorem ProfileOk.blended_range {p : Profile} (h : ProfileOk p) (f : Nat) (c : Channel) (u : Nat) :
    -16384 ≤ blended p.stations (chooseStations f p.stations) c u
      ∧ blended p.stations (chooseStations f p.stations) c u ≤ 16383 := by
  have hlower := h.stationValue_range (chooseStations f p.stations).lower c u
  have hupper := h.stationValue_range (chooseStations f p.stations).upper c u
  unfold blended
  dsimp only
  split
  · exact hlower
  · have hbetween := nearestAway_between (stationValue p.stations (chooseStations f p.stations).lower c u)
      (stationValue p.stations (chooseStations f p.stations).upper c u) (chooseStations_weight_le f p.stations)
      (by decide)
    omega

theorem frameCurve_getElem? (p : Profile) (ch : StationChoice) (c : Channel) {i : Nat} (hi : i < 65) :
    ((frameCurve p ch).get c)[i]?
      = some (max (-16384) (min 16383 (blended p.stations ch c (128 * i) + p.trims.scale))) := by
  rw [frameCurve_get, List.getElem?_map, curveSums, List.getElem?_map, List.getElem?_range hi]
  rfl

/-- R55: a sum was clamped exactly where one lies outside the limits. -/
theorem curveSaturated_iff (p : Profile) (ch : StationChoice) : curveSaturated p ch = true ↔
    ∃ (c : Channel) (i : Nat), i < 65 ∧ (blended p.stations ch c (128 * i) + p.trims.scale < -16384
      ∨ 16383 < blended p.stations ch c (128 * i) + p.trims.scale) := by
  have hall : ∀ c : Channel, c ∈ [Channel.green, .red, .blue] := fun c => by cases c <;> decide
  have hout (x : Int) : (!within Config.deltaMin Config.deltaMax x) = true ↔ x < -16384 ∨ 16383 < x := by
    have hwithin : within Config.deltaMin Config.deltaMax x = true ↔ -16384 ≤ x ∧ x ≤ 16383 := within_iff _ _ x
    rw [Bool.not_eq_true', Bool.eq_false_iff, ne_eq, hwithin]
    omega
  simp only [curveSaturated, List.any_eq_true, hall, true_and, hout, curveSums, List.mem_map, List.mem_range]
  constructor
  · rintro ⟨c, x, ⟨i, hi, rfl⟩, hx⟩
    exact ⟨c, i, hi, hx⟩
  · rintro ⟨c, i, hi, hx⟩
    exact ⟨c, _, ⟨i, hi, rfl⟩, hx⟩

/-- Settles O17. -/
theorem frameCurveClamped : Obligations.FrameCurveClamped := by
  intro pr f hprofile ch
  refine ⟨fun c => ⟨?_, fun i hi => frameCurve_getElem? pr ch c hi⟩, curveSaturated_iff pr ch, fun hscale => ?_,
    fun p seq fr id slot notes => ⟨rfl, ?_⟩⟩
  · rw [frameCurve_get, List.length_map, curveSums, List.length_map, List.length_range]
  · rw [Bool.eq_false_iff, ne_eq, curveSaturated_iff]
    rintro ⟨c, i, -, hout⟩
    have hrange : -16384 ≤ blended pr.stations ch c (128 * i) ∧ blended pr.stations ch c (128 * i) ≤ 16383 :=
      hprofile.blended_range f c (128 * i)
    rw [hscale] at hout
    omega
  · simp [correctedEntry_notes, hasNote_if, ch]

/-! ### The search for a profile (O19) -/

theorem findProfile_some {slots : List Slot} {id : LensId} {i : Nat} {p : Profile}
    (h : findProfile slots id = some (i, p)) : slots[i]? = some (.ready p) ∧ p.ident = id := by
  obtain ⟨⟨x, k⟩, hmem, hx⟩ := List.exists_of_findSome?_eq_some h
  have hslot : slots[k]? = some x := List.mem_zipIdx_iff_getElem?.mp hmem
  cases x with
  | empty => cases hx
  | loading => cases hx
  | ready q =>
    dsimp only at hx
    split at hx
    · next hid =>
      cases hx
      exact ⟨hslot, hid⟩
    · cases hx

theorem findProfile_none {slots : List Slot} {id : LensId} (h : findProfile slots id = none) (p : Profile)
    (hp : Slot.ready p ∈ slots) : p.ident ≠ id := by
  obtain ⟨i, hi⟩ := List.mem_iff_getElem?.mp hp
  intro hid
  have hmiss := List.findSome?_eq_none_iff.mp h (.ready p, i) (List.mem_zipIdx_iff_getElem?.mpr hi)
  dsimp only at hmiss
  rw [if_pos hid] at hmiss
  cases hmiss

/-- R5: in a table within its rules the search finds the one slot that holds the identity. -/
theorem findProfile_of_slot {slots : List Slot} (htable : TableOk slots) {i : Nat} {p : Profile}
    (hi : slots[i]? = some (.ready p)) : findProfile slots p.ident = some (i, p) := by
  obtain ⟨-, -, hunique⟩ := htable
  cases hfound : findProfile slots p.ident with
  | none => exact absurd rfl (findProfile_none hfound p (List.mem_of_getElem? hi))
  | some x =>
    obtain ⟨j, q⟩ := x
    obtain ⟨hj, hq⟩ := findProfile_some hfound
    obtain rfl := hunique i j p q hi hj hq.symm
    obtain rfl : p = q := Slot.ready.inj (Option.some.inj (hi.symm.trans hj))
    rfl

theorem findProfile_of_absent {slots : List Slot} {id : LensId} (h : ∀ p, Slot.ready p ∈ slots → p.ident ≠ id) :
    findProfile slots id = none := by
  cases hfound : findProfile slots id with
  | none => rfl
  | some x =>
    obtain ⟨hi, hid⟩ := findProfile_some hfound
    exact absurd hid (h x.2 (List.mem_of_getElem? hi))

section Resolution
variable {s : State} {f : FrameFields} (seq : Count)

theorem resolution_refuse {r : Reason} (h : chooseLens s f = .refuse r) : resolution s seq f = .error r := by
  unfold resolution
  rw [h]

theorem resolution_pass {ident : Option LensId} {focal : Nat} {notes : BitVec 16}
    (h : chooseLens s f = .passThrough ident focal notes) :
    resolution s seq f = .ok (passEntry s.params seq f ident focal notes) := by
  unfold resolution
  rw [h]

theorem resolution_correct {ident : LensId} {focal slot : Nat} {p : Profile} {notes : BitVec 16}
    (h : chooseLens s f = .correct ident focal slot p notes) :
    resolution s seq f = .ok (correctedEntry s.params seq f ident focal slot p notes) := by
  unfold resolution
  rw [h]

/-- The two notes of a pass-through, as the bits of the notes field. -/
theorem addNote_addNote_uncorrected (notes : BitVec 16) (n : Note) :
    addNote (addNote notes n) .uncorrected = notes ||| ((1#16 <<< n.bit) ||| 0x0020) := BitVec.or_assoc _ _ _

/-- R50: step 3, whichever identity it searches for. -/
theorem resolution_searches {id : LensId} {focal : Nat} {notes : BitVec 16}
    (h : chooseLens s f = searchProfile s id focal notes) :
    (∀ (i : Nat) (pr : Profile), TableOk s.slots → s.slots[i]? = some (.ready pr) → pr.ident = id →
      resolution s seq f = .ok (correctedEntry s.params seq f id focal i pr notes))
    ∧ ((∀ pr, Slot.ready pr ∈ s.slots → pr.ident ≠ id) →
      (s.sig.missing = .refuse → resolution s seq f = .error .noProfile)
      ∧ (s.sig.missing = .pass →
        resolution s seq f = .ok (passEntry s.params seq f (some id) focal (notes ||| 0x0030)))) := by
  unfold searchProfile at h
  refine ⟨fun i pr htable hi hid => ?_, fun habsent => ⟨fun hpolicy => ?_, fun hpolicy => ?_⟩⟩
  · subst hid
    rw [findProfile_of_slot htable hi] at h
    exact resolution_correct seq h
  · rw [findProfile_of_absent habsent, hpolicy] at h
    exact resolution_refuse seq h
  · rw [findProfile_of_absent habsent, hpolicy, addNote_addNote_uncorrected] at h
    exact resolution_pass seq h

end Resolution

theorem chooseLens_given {s : State} {f : FrameFields} (h : f.source = 1) : chooseLens s f = chooseByGiven s f :=
  if_pos h

theorem chooseLens_tap {s : State} {f : FrameFields} (h : f.source = 0) : chooseLens s f = chooseByTap s f.stamp :=
  if_neg (by omega)

theorem chooseByGiven_bad {s : State} {f : FrameFields} (h : ¬ IdentOk f.given ∨ f.givenFocal = 0) :
    chooseByGiven s f = .refuse .badFocal := by
  refine if_pos ?_
  rw [← LensId.valid_iff, Bool.not_eq_true] at h
  rcases h with h | h <;> simp [h]

theorem chooseByGiven_good {s : State} {f : FrameFields} (hid : IdentOk f.given) (hfocal : f.givenFocal ≠ 0) :
    chooseByGiven s f = searchProfile s f.given f.givenFocal 0 := by
  refine if_neg ?_
  simp [(LensId.valid_iff _).mpr hid, hfocal]

/-- R47 to R49: where each answer of the lookup leads. -/
theorem chooseByTap_cases (s : State) (t : Stamp) :
    let a := s.tap.lookup s.free t
    (a.status = .exact → chooseByTap s t = searchProfile s a.ident a.focal 0)
    ∧ (a.status = .between → chooseByTap s t = searchProfile s a.ident a.focal 0)
    ∧ (a.status = .held → chooseByTap s t = searchProfile s a.ident a.focal 0x0002)
    ∧ (a.status = .stale → s.sig.stale = .hold → chooseByTap s t = searchProfile s a.ident a.focal 0x0004)
    ∧ (a.status = .stale → s.sig.stale = .pass → chooseByTap s t = .passThrough (some a.ident) a.focal 0x0024)
    ∧ (a.status = .missing → s.sig.missing = .refuse → chooseByTap s t = .refuse .noLensData)
    ∧ (a.status = .missing → s.sig.missing = .pass → chooseByTap s t = .passThrough none 0 0x0028) := by
  intro a
  refine ⟨fun h => ?_, fun h => ?_, fun h => ?_, fun h hpolicy => ?_, fun h hpolicy => ?_, fun h hpolicy => ?_,
    fun h hpolicy => ?_⟩ <;> unfold chooseByTap <;> dsimp only
  all_goals rw [show (s.tap.lookup s.free t).status = _ from h]
  · rfl
  all_goals rw [hpolicy]
  all_goals rfl

theorem noteIf_eq (c : Bool) (n : Note) (notes : BitVec 16) :
    noteIf c n notes = notes ||| if c then 1#16 <<< n.bit else 0 := by
  cases c
  · exact BitVec.or_zero.symm
  · rfl

/-- Settles O19. -/
theorem frameResolution : Obligations.FrameResolution := by
  refine ⟨fun s seq f => ?_, fun p seq f id focal slot pr notes => ?_, fun p seq f id focal notes => ?_⟩
  · intro a searches
    obtain ⟨hexact, hbetween, hheld, hstaleHold, hstalePass, hrefuse, hpass⟩ := chooseByTap_cases s f.stamp
    refine ⟨fun hgiven => ⟨fun hbad => ?_, fun hid hfocal => ?_⟩, fun htap => ?_⟩
    · exact resolution_refuse seq ((chooseLens_given hgiven).trans (chooseByGiven_bad hbad))
    · exact resolution_searches seq ((chooseLens_given hgiven).trans (chooseByGiven_good hid hfocal))
    · have htap := chooseLens_tap (s := s) htap
      exact ⟨fun h => resolution_searches seq (htap.trans (hexact h)),
        fun h => resolution_searches seq (htap.trans (hbetween h)),
        fun h => resolution_searches seq (htap.trans (hheld h)),
        fun h hpolicy => resolution_searches seq (htap.trans (hstaleHold h hpolicy)),
        fun h hpolicy => resolution_pass seq (htap.trans (hstalePass h hpolicy)),
        fun h hpolicy => resolution_refuse seq (htap.trans (hrefuse h hpolicy)),
        fun h hpolicy => resolution_pass seq (htap.trans (hpass h hpolicy))⟩
  · refine ⟨rfl, rfl, rfl, ?_, rfl, rfl, rfl, rfl, rfl, rfl, rfl⟩
    rw [correctedEntry_notes, noteIf_eq, noteIf_eq, noteIf_eq]
    rfl
  · refine ⟨zeroCurve_get, Int.add_zero _, Int.add_zero _, ?_, rfl, rfl, rfl, rfl, rfl, rfl, rfl, rfl⟩
    exact (makeEntry_notes ..).trans (noteIf_eq _ _ _)

end Sys2Proof.Machine

/-! PROOFS. The lens tap (chapter 2): a run's close (O8, O10, O11), the line and an accepted message's bytes (O9), and
the lookup (O12). -/

namespace Sys2Proof.Machine

/-! ### The close of a run -/

theorem exec_lensMessage (line : List LineEvent) (s : State) :
    exec (.lensMessage line) s = .next (line.foldl hearEvent s) := rfl

theorem exec_lensMessage_closes {s : State} {run : Run} {bits : Nat} (h : s.tap.rx.closes run bits) :
    exec (.lensMessage [.idle bits]) s = .next (closeRun run { s with tap := { s.tap with rx := .afterGap } }) := by
  refine congrArg Host.Outcome.next ?_
  show hearEvent s (.idle bits) = _
  simp only [hearEvent, Receiver.hear_closes h]

/-! ### A discarded run (O8) -/

theorem getD_map_heardValue (run : Run) (i : Nat) :
    ((run.bytes.map heardValue).getD i 0).toNat = heardAt run i := by
  rw [List.getD_eq_getElem?_getD, List.getElem?_map]
  rfl

theorem fieldAt_heard_one (run : Run) (i : Nat) : fieldAt (run.bytes.map heardValue) i 1 = heardAt run i := by
  rw [fieldAt_one, getD_map_heardValue]

theorem fieldAt_heard_two (run : Run) (i : Nat) :
    fieldAt (run.bytes.map heardValue) i 2 = heardAt run i + 256 * heardAt run (i + 1) := by
  rw [fieldAt_two, getD_map_heardValue, getD_map_heardValue]

theorem sum_toNat (l : List Byte) : l.sum.toNat = (l.map BitVec.toNat).sum % 256 := by
  induction l with
  | nil => rfl
  | cons b l ih => rw [List.sum_cons, BitVec.toNat_add, ih, List.map_cons, List.sum_cons, Nat.add_mod_mod]

/-- R25: the checks of an accepted run, byte by byte. -/
theorem heard_of_acceptRun {run : Run} {m : Message} (h : acceptRun run = some m) :
    run.crossedSync = false ∧ (∀ b ∈ run.bytes, b.samples.getLsbD 8 = true) ∧ run.bytes.length = 8
      ∧ heardAt run 0 = 0x6C ∧ (run.bytes.map fun b => (heardValue b).toNat).sum % 256 = 255
      ∧ heardAt run 1 + 256 * heardAt run 2 ≠ 0 ∧ heardAt run 1 + 256 * heardAt run 2 ≠ 65535
      ∧ ¬ (heardAt run 3 / 16 = 1 ∧ heardAt run 4 + 256 * heardAt run 5 = 0) := by
  obtain ⟨hsync, hframing, hlength, hmarker, hsum, ⟨hzero, hmax⟩, hfocal, -⟩ := acceptRun_eq_some_iff.mp h
  rw [fieldAt_heard_two] at hzero hmax
  rw [fieldAt_heard_one, fieldAt_heard_two] at hfocal
  refine ⟨hsync, fun b hb => ?_, (List.length_map _).symm.trans hlength, ?_, ?_, hzero, hmax, hfocal⟩
  · simpa [framingError] using List.any_eq_false.mp hframing b hb
  · rw [← getD_map_heardValue, hmarker]
    rfl
  · have hsum := congrArg BitVec.toNat hsum
    rwa [sum_toNat, List.map_map] at hsum

/-- Settles O8. -/
theorem lensRunDiscarded : Obligations.LensRunDiscarded := by
  intro run bits s hcloses hbad
  have hnone : acceptRun run = none := by
    cases haccepted : acceptRun run with
    | none => rfl
    | some m =>
      obtain ⟨hsync, hframing, hlength, hmarker, hsum, hzero, hmax, hfocal⟩ := heard_of_acceptRun haccepted
      obtain hcross | ⟨b, hb, hlow⟩ | hne | hne | hne | heq | heq | hboth := hbad
      · exact absurd (hsync.symm.trans hcross) Bool.false_ne_true
      · exact absurd (hlow.symm.trans (hframing b hb)) Bool.false_ne_true
      exacts [absurd hlength hne, absurd hmarker hne, absurd hsum hne, absurd heq hzero, absurd heq hmax,
        absurd hboth hfocal]
  rw [exec_lensMessage_closes hcloses, closeRun, hnone, satInc_eq]

/-! ### The line, and the bytes of a message (O9) -/

theorem exec_lensMessage_one {s : State} {e : LineEvent} (h : (s.tap.rx.hear s.tap.timebase e).2 = none) :
    exec (.lensMessage [e]) s = .next { s with tap := { s.tap with rx := (s.tap.rx.hear s.tap.timebase e).1 } } := by
  refine congrArg Host.Outcome.next ?_
  show hearEvent s e = _
  simp only [hearEvent, h]

/-- An event that the receiver answers with `r` and no run. -/
theorem exec_lensMessage_hears {s : State} {e : LineEvent} {r : Receiver}
    (h : s.tap.rx.hear s.tap.timebase e = (r, none)) :
    exec (.lensMessage [e]) s = .next { s with tap := { s.tap with rx := r } } := by
  rw [exec_lensMessage_one (congrArg Prod.snd h), h]

theorem exec_lensMessage_append (line line' : List LineEvent) {s t : State} (h : exec (.lensMessage line) s = .next t) :
    exec (.lensMessage (line ++ line')) s = exec (.lensMessage line') t := by
  rw [← Host.Outcome.next.inj h, exec_lensMessage, exec_lensMessage, List.foldl_append]

/-- R25: the check byte brings the sum of the eight to 255. -/
theorem lensBytes_sum (id : LensId) (kind focal seq : Nat) : (lensBytes id kind focal seq).sum = 255 := by
  unfold lensBytes
  dsimp only
  rw [List.sum_append, List.sum_singleton]
  exact add_sub_cancel _ _

theorem lensBytes_fields {id : LensId} {kind focal seq : Nat} (hid : IdentOk id) (hkind : kind < 16)
    (hfocal : focal < 65536) (hseq : seq < 256) :
    let v := lensBytes id kind focal seq
    fieldAt v 1 2 = id.model ∧ fieldAt v 3 1 = id.ext + 16 * kind ∧ fieldAt v 4 2 = focal ∧ fieldAt v 6 1 = seq := by
  obtain ⟨hmodel, hmodel', hext⟩ := hid
  have head (x : Byte) (rest : List Byte) (off n : Nat) (h : 1 ≤ off) :
      fieldAt ([x] ++ rest) off n = fieldAt rest (off - 1) n := fieldAt_skip h
  have byte : [BitVec.ofNat 8 (id.ext + 16 * kind)] = leBytes 1 (id.ext + 16 * kind) := rfl
  refine ⟨?_, ?_, ?_, ?_⟩ <;>
    simp only [lensBytes, byte, List.append_assoc, head, fieldAt_skip, leBytes_length, fieldAt_leBytes,
       Nat.reduceLeDiff, Nat.reduceSub, Nat.reducePow] <;>
    omega

/-- R25, R135: the eight bytes of a message, heard without framing error or SYNC. -/
theorem acceptRun_lensBytes {run : Run} {last : HeardByte} {id : LensId} {kind focal seq : Nat} (hid : IdentOk id)
    (hkind : kind < 16) (hfocal : focal < 65536) (hposition : kind = 1 → focal ≠ 0) (hseq : seq < 256)
    (hsync : run.crossedSync = false) (hframing : ∀ b ∈ run.bytes, b.samples.getLsbD 8 = true)
    (hbytes : run.bytes.map heardValue = lensBytes id kind focal seq) (hlast : run.bytes.getLast? = some last) :
    acceptRun run = some { ident := id, kind, focal, seq, arrival := last.stopTime } := by
  obtain ⟨hmodel, hext, hfocal', hseq'⟩ := lensBytes_fields hid hkind hfocal hseq
  obtain ⟨hpos, hmax, hlow⟩ := hid
  have harrival : arrivalOf run.bytes = last.stopTime := by rw [arrivalOf, hlast]; rfl
  refine acceptRun_eq_some_iff.mpr ?_
  rw [hbytes]
  refine ⟨hsync, List.any_eq_false.mpr fun b hb => by simp [framingError, hframing b hb], by simp [lensBytes], rfl,
    lensBytes_sum .., ⟨by omega, by omega⟩, fun ⟨hone, hzero⟩ => hposition (by omega) (by omega), ?_⟩
  have hkind' : (id.ext + 16 * kind) / 16 = kind := by omega
  have hext' : (id.ext + 16 * kind) % 16 = id.ext := by omega
  simp only [messageOf, hmodel, hext, hfocal', hseq', hkind', hext', harrival]

/-- Settles O9. -/
theorem lensMessageBytesAccepted : Obligations.LensMessageBytesAccepted := by
  refine ⟨fun s => rfl, fun line line' s t => exec_lensMessage_append line line', fun s samples bits => ?_,
    fun run last id kind focal seq hid hkind hfocal hposition hseq hsync hframing hbytes hlast =>
      acceptRun_lensBytes hid hkind hfocal hposition hseq hsync hframing hbytes hlast⟩
  intro hears rx
  have other {x y : LinePhase} (h : rx.phase = x) (hne : x ≠ y) : rx.phase ≠ y := h ▸ hne
  refine ⟨fun hidle => ⟨exec_lensMessage_hears (Receiver.hear_start_of_idle _ hidle),
      exec_lensMessage_hears (Receiver.hear_stop_of_ne _ (other hidle (by decide)) samples)⟩,
    fun hbyte => ⟨exec_lensMessage_hears (Receiver.hear_stop_of_inByte _ hbyte samples),
      exec_lensMessage_hears (Receiver.hear_start_of_ne _ (other hbyte (by decide))),
      exec_lensMessage_hears (Receiver.hear_idle_of_inByte _ hbyte bits)⟩,
    fun hlow => ⟨exec_lensMessage_hears (Receiver.hear_start_of_ne _ (other hlow (by decide))),
      exec_lensMessage_hears (Receiver.hear_stop_of_ne _ (other hlow (by decide)) samples)⟩,
    fun hout hshort => exec_lensMessage_hears (Receiver.hear_idle_of_lt _ hout hshort), fun hout hlong hnone => ?_⟩
  refine exec_lensMessage_hears ((Receiver.hear_idle_of_le _ hout hlong).trans ?_)
  rw [show s.tap.rx.run = none from hnone]

/-! ### An accepted message (O10) -/

/-- R25 step 1, R40: the quiet timer restarts and a standing quiet condition ends. -/
theorem endQuiet_eq (s : State) : endQuiet s = { s with
    tap := { s.tap with quietTimer := 0, quiet := false }
    sig := { s.sig with live := { s.sig.live with quiet := if s.tap.quiet then false else s.sig.live.quiet } }
    report := { s.report with
      pending := s.report.pending || (s.tap.quiet && decide (s.win.state = .run ∨ s.win.state = .hot)) } } := by
  rw [endQuiet, ← State.working_eq_decide]
  cases hquiet : s.tap.quiet
  · simp only [hquiet, Bool.false_and, Bool.or_false, Bool.false_eq_true, if_false]
  · rfl

theorem endQuiet_last (s : State) : (endQuiet s).tap.last = s.tap.last := by rw [endQuiet_eq]

theorem hearMessage_duplicate {m : Message} {s : State} (h : s.tap.last = some m.key) : hearMessage m s =
    { endQuiet s with tap := { (endQuiet s).tap with duplicates := satInc (endQuiet s).tap.duplicates } } :=
  if_pos ((endQuiet_last s).trans h)

theorem hearMessage_other {m : Message} {s : State} (h : s.tap.last ≠ some m.key) (hkind : m.kind ≠ 1) :
    hearMessage m s = { endQuiet s with tap := { (endQuiet s).tap with last := some m.key } } :=
  (if_neg (endQuiet_last s ▸ h)).trans (if_neg hkind)

theorem hearMessage_report {m : Message} {s : State} (h : s.tap.last ≠ some m.key) (hkind : m.kind = 1) :
    hearMessage m s = track m { endQuiet s with tap := { (endQuiet s).tap with last := some m.key } } :=
  (if_neg (endQuiet_last s ▸ h)).trans (if_pos hkind)

theorem closeRun_accepted {run : Run} {m : Message} (h : acceptRun run = some m) (s : State) :
    closeRun run s = hearMessage m s := by
  unfold closeRun
  rw [h]

/-- Settles O10. -/
theorem messagesThatEndAtTheTap : Obligations.MessagesThatEndAtTheTap := by
  intro run bits m s hcloses haccepted heard
  rw [exec_lensMessage_closes hcloses, closeRun_accepted haccepted]
  refine ⟨fun hduplicate => ?_, fun hnew hkind => ?_⟩
  · rw [hearMessage_duplicate (by exact hduplicate), endQuiet_eq, satInc_eq]
  · rw [hearMessage_other (by exact hnew) hkind, endQuiet_eq]
    rfl

/-! ### The tracker (O11) -/

section Tracker
variable {t : Tap} {m : Message}

theorem Tap.trackStep_eq_logReport (h : t.current = some m.ident) : t.trackStep m.ident = .logReport := if_pos h

theorem Tap.trackStep_eq_makeCandidate (h : t.current ≠ some m.ident) (hnone : t.candidate = none) :
    t.trackStep m.ident = .makeCandidate := (if_neg h).trans (if_pos hnone)

theorem Tap.trackStep_eq_confirm (h : t.current ≠ some m.ident) (hagain : t.candidate = some m.ident) :
    t.trackStep m.ident = .confirm :=
  (if_neg h).trans ((if_neg (by rw [hagain]; exact Option.some_ne_none _)).trans (if_pos hagain))

theorem Tap.trackStep_eq_replace (h : t.current ≠ some m.ident) (hsome : t.candidate ≠ none)
    (hother : t.candidate ≠ some m.ident) : t.trackStep m.ident = .replace :=
  (if_neg h).trans ((if_neg hsome).trans (if_neg hother))

/-- R29 to R33: what each step does to the state. -/
theorem track_of_logReport {s : State} (h : s.tap.trackStep m.ident = .logReport) :
    track m s = { s with tap := s.tap.logReport m } := by
  rw [track, Tap.track, h]
  exact if_neg nofun

theorem track_of_makeCandidate {s : State} (h : s.tap.trackStep m.ident = .makeCandidate) :
    track m s = { s with tap := { s.tap with candidate := some m.ident } } := by
  rw [track, Tap.track, h]
  exact if_neg nofun

theorem track_of_confirm {s : State} (h : s.tap.trackStep m.ident = .confirm) : track m s =
    { s with tap := s.tap.confirm m, sig := s.sig.latch .lensChange, report := s.report.ask s.working } := by
  rw [track, Tap.track, h]
  exact if_pos rfl

theorem track_of_replace {s : State} (h : s.tap.trackStep m.ident = .replace) :
    track m s = { s with tap := { s.tap with candidate := some m.ident, glitches := satInc s.tap.glitches } } := by
  rw [track, Tap.track, h]
  exact if_neg nofun

end Tracker

/-- R35, R38: a sample that is early, or not later than the newest, is refused. -/
theorem offer_refused_iff (t : Tap) (arrival : Stamp) :
    (t.early arrival || notLater t.log (t.stampOf arrival)) = true ↔
      (t.eraYoung = true ∧ arrival.toNat < t.latency)
        ∨ ∃ x, t.log.getLast? = some x ∧ stampDiff x.stamp (t.stampOf arrival) ≤ 0 := by
  rw [Bool.or_eq_true]
  refine or_congr ?_ ?_
  · rw [Tap.early, Bool.and_eq_true, decide_eq_true_iff]
  · unfold notLater
    cases t.log.getLast? with
    | none => simp
    | some x => simp [earlier]

/-- R38: the oldest of 64 samples gives way. -/
theorem appendSample_eq {log : List Sample} (h : log.length ≤ 64) (x : Sample) :
    appendSample log x = (if log.length = 64 then log.tail else log) ++ [x] := by
  unfold appendSample Config.logDepth
  split
  · next hfull => rw [hfull, ← List.drop_one]
  · next hroom => rw [show log.length + 1 - 64 = 0 by omega, List.drop_zero]

theorem Tap.offer_refused {t : Tap} {arrival : Stamp} (focal : Nat)
    (h : (t.eraYoung = true ∧ arrival.toNat < t.latency)
      ∨ ∃ x, t.log.getLast? = some x ∧ stampDiff x.stamp (t.stampOf arrival) ≤ 0) :
    t.offer arrival focal = { t with dropped := BitVec.ofNat 16 (min 65535 (t.dropped.toNat + 1)) } := by
  rw [← satInc_eq]
  exact if_pos ((offer_refused_iff t arrival).mpr h)

theorem Tap.offer_appended {t : Tap} {arrival : Stamp} (focal : Nat) (hlog : t.log.length ≤ 64)
    (hearly : ¬ (t.eraYoung = true ∧ arrival.toNat < t.latency))
    (hlater : ∀ x, t.log.getLast? = some x → 0 < stampDiff x.stamp (t.stampOf arrival)) :
    t.offer arrival focal = { t with log := (if t.log.length = 64 then t.log.tail else t.log)
      ++ [{ stamp := t.stampOf arrival, focal }] } := by
  rw [← appendSample_eq hlog]
  refine if_neg fun hrefused => ?_
  obtain hyoung | ⟨x, hx, hle⟩ := (offer_refused_iff t arrival).mp hrefused
  · exact hearly hyoung
  · exact absurd (hlater x hx) (not_lt.mpr hle)

/-- A write asked for twice is asked for once. -/
theorem pending_or_twice (pending asked working : Bool) :
    (pending || (asked && working) || working) = (pending || working) := by
  cases pending <;> cases asked <;> cases working <;> rfl

/-- Settles O11. -/
theorem trackerSteps : Obligations.TrackerSteps := by
  intro run bits m s hcloses haccepted hkind hlog hnew closed stamp early working ended heard moreDropped moreGlitches
  have hclosed : closed = .next (track m { ended with tap := heard }) := by
    refine (exec_lensMessage_closes hcloses).trans (congrArg Host.Outcome.next ?_)
    rw [closeRun_accepted haccepted, hearMessage_report (by exact hnew) hkind, endQuiet_eq]
    rfl
  rw [hclosed]
  refine ⟨fun hcurrent => ?_, fun hother hnone => ?_, fun hother hagain => ?_, fun hother hsome hthird => ?_⟩
  · rw [track_of_logReport (s := { ended with tap := heard }) (Tap.trackStep_eq_logReport hcurrent)]
    intro tracked
    have hlogged : heard.logReport m = tracked.offer m.arrival m.focal := by
      rw [Tap.logReport, satInc_eq]
    refine ⟨fun hrefused => ?_, fun ⟨hearly, hlater⟩ => ?_⟩
    · rw [hlogged, Tap.offer_refused (t := tracked) m.focal hrefused]
    · rw [hlogged, Tap.offer_appended (t := tracked) m.focal hlog hearly hlater]
      rfl
  · rw [track_of_makeCandidate (s := { ended with tap := heard }) (Tap.trackStep_eq_makeCandidate hother hnone)]
  · intro confirmed tracked
    rw [track_of_confirm (s := { ended with tap := heard }) (Tap.trackStep_eq_confirm hother hagain)]
    have hepoch : s.tap.epoch + 1 = BitVec.ofNat 8 (s.tap.epoch.toNat + 1) := by
      apply BitVec.eq_of_toNat_eq
      simp [BitVec.toNat_add]
    have hconfirm : heard.confirm m = tracked.offer m.arrival m.focal := by
      rw [Tap.confirm, hepoch]
    have hreport : ended.report.ask ended.working = confirmed.report := by
      rw [ReportWriter.ask, State.working_eq_decide]
      exact congrArg (fun p => { s.report with pending := p }) (pending_or_twice _ _ _)
    have hstate (u : Tap) : ({ ended with
        tap := u, sig := ended.sig.latch .lensChange, report := ended.report.ask ended.working } : State)
          = { confirmed with tap := u } := by
      rw [hreport]
      rfl
    refine ⟨fun hearly => ?_, fun hearly => ?_⟩
    · rw [hconfirm, Tap.offer_refused (t := tracked) m.focal (.inl hearly)]
      exact congrArg Host.Outcome.next (hstate _)
    · rw [hconfirm, Tap.offer_appended (t := tracked) m.focal (Nat.zero_le _) hearly nofun]
      exact congrArg Host.Outcome.next (hstate _)
  · rw [track_of_replace (s := { ended with tap := heard }) (Tap.trackStep_eq_replace hother hsome hthird), satInc_eq]

/-! ### The lookup (O12) -/

theorem Tap.lookup_empty {tap : Tap} (h : tap.current = none ∨ tap.log = []) (n : Nat) (t : Stamp) :
    (tap.lookup n t).status = .missing := by
  obtain h | h := h
  · simp [Tap.lookup, h]
  · cases hid : tap.current <;> simp [Tap.lookup, h, hid]

section Lookup
variable {tap : Tap} {id : LensId} {oldest newest : Sample} (hid : tap.current = some id)
  (hhead : tap.log.head? = some oldest) (hlast : tap.log.getLast? = some newest) (n : Nat) {t : Stamp}
include hid hhead hlast

/-- R42: a stamp before the oldest sample. -/
theorem Tap.lookup_before (h : 0 < stampDiff t oldest.stamp) :
    tap.lookup n t = { status := .missing, focal := 0, ident := id } := by
  simp [Tap.lookup, hid, hhead, hlast, earlier, h]

/-- R42: a stamp that samples have; one of them answers. -/
theorem Tap.lookup_exact (h : ¬ 0 < stampDiff t oldest.stamp) {x : Sample} (hx : x ∈ tap.log) (hstamp : x.stamp = t) :
    ∃ y ∈ tap.log, y.stamp = t ∧ tap.lookup n t = { status := .exact, focal := y.focal, ident := id } := by
  have hne : tap.log.filter (fun x => x.stamp = t) ≠ [] :=
    List.ne_nil_of_mem (List.mem_filter.mpr ⟨hx, by simpa using hstamp⟩)
  obtain ⟨y, hy, hmember⟩ := freeMember_spec n hne
  obtain ⟨hlog, hyt⟩ := List.mem_filter.mp hy
  refine ⟨y, hlog, by simpa using hyt, ?_⟩
  simp [Tap.lookup, hid, hhead, hlast, earlier, h, hmember]

/-- R42: a stamp after the newest sample, HELD up to Q and STALE beyond. -/
theorem Tap.lookup_after (h : ¬ 0 < stampDiff t oldest.stamp) (hne : ∀ x ∈ tap.log, x.stamp ≠ t)
    (hafter : 0 < stampDiff newest.stamp t) : tap.lookup n t =
      { status := if stampDiff newest.stamp t ≤ (tap.quietMs * 1000 : Nat) then .held else .stale
        focal := newest.focal, ident := id } := by
  have hnone : tap.log.filter (fun x => x.stamp = t) = [] := by simpa using hne
  simp [Tap.lookup, hid, hhead, hlast, earlier, h, hnone, hafter, stampDiff_asymm _ _ hafter]

/-- A stamp that no row of R42's table covers. -/
theorem Tap.lookup_open (h : ¬ 0 < stampDiff t oldest.stamp) (hne : ∀ x ∈ tap.log, x.stamp ≠ t)
    (hafter : ¬ 0 < stampDiff newest.stamp t)
    (hends : ¬ (0 < stampDiff oldest.stamp t ∧ 0 < stampDiff t newest.stamp)) :
    let status := freeStatus (!(straddling tap.log t).isEmpty) n
    tap.lookup n t =
      { status, focal := if status = .between then betweenFocal tap.log n t else newest.focal, ident := id } := by
  have hnone : tap.log.filter (fun x => x.stamp = t) = [] := by simpa using hne
  simp [Tap.lookup, hid, hhead, hlast, earlier, h, hnone, hafter, hends]

end Lookup

/-- R42, log entry 9: with one sample there is no pair to interpolate between. -/
theorem freeStatus_alone (n : Nat) : freeStatus false n ∈ [.missing, .held, .stale] := by
  unfold freeStatus
  split <;> decide

/-- R42: the answers of a log with one sample. -/
theorem Tap.lookup_alone {tap : Tap} {id : LensId} {x : Sample} (hid : tap.current = some id) (hlog : tap.log = [x])
    (n : Nat) (t : Stamp) :
    (x.stamp = t ∧ tap.lookup n t = { status := .exact, focal := x.focal, ident := id })
      ∨ (x.stamp ≠ t ∧ (tap.lookup n t).status = .missing)
      ∨ (x.stamp ≠ t ∧ ∃ status ∈ [LookupStatus.missing, .held, .stale],
          tap.lookup n t = { status, focal := x.focal, ident := id }) := by
  have hhead : tap.log.head? = some x := by rw [hlog]; rfl
  have hlast : tap.log.getLast? = some x := by rw [hlog]; rfl
  have hmem : x ∈ tap.log := by rw [hlog]; exact List.mem_singleton_self x
  by_cases hstamp : x.stamp = t
  · have hself : ¬ 0 < stampDiff t x.stamp := by rw [hstamp, stampDiff_self]; exact lt_irrefl 0
    obtain ⟨y, hy, -, hlookup⟩ := Tap.lookup_exact hid hhead hlast n hself hmem hstamp
    rw [hlog, List.mem_singleton] at hy
    exact .inl ⟨hstamp, hy ▸ hlookup⟩
  have hne : ∀ y ∈ tap.log, y.stamp ≠ t := fun y hy => by
    rw [hlog, List.mem_singleton] at hy
    exact hy ▸ hstamp
  by_cases hbefore : 0 < stampDiff t x.stamp
  · exact .inr (.inl ⟨hstamp, by rw [Tap.lookup_before hid hhead hlast n hbefore]⟩)
  refine .inr (.inr ⟨hstamp, ?_⟩)
  by_cases hafter : 0 < stampDiff x.stamp t
  · refine ⟨_, ?_, Tap.lookup_after hid hhead hlast n hbefore hne hafter⟩
    split <;> decide
  · have hopen := Tap.lookup_open hid hhead hlast n hbefore hne hafter fun ⟨hlow, _⟩ => hafter hlow
    have hpairs : straddling tap.log t = [] := by rw [hlog]; rfl
    have hstatus := freeStatus_alone n
    rw [hpairs] at hopen
    refine ⟨_, hstatus, hopen.trans ?_⟩
    rw [if_neg]
    · rfl
    · intro hbetween
      rw [show freeStatus false n = .between from hbetween] at hstatus
      exact absurd hstatus (by decide)

/-- Settles O12. -/
theorem lookupTable : Obligations.LookupTable := by
  refine ⟨fun tap n t h => Tap.lookup_empty h n t, fun tap n t id x hid hlog => ?_,
    fun tap n t id oldest newest hid hhead hlast => ⟨fun hbefore => ?_, fun hbefore => ⟨fun x hx hstamp => ?_,
      fun hne => ⟨fun hlow hhigh => ?_, fun hafter hheld => ?_, fun hafter hstale => ?_⟩⟩⟩⟩
  · intro found
    obtain ⟨hstamp, hfound⟩ | ⟨hstamp, hmissing⟩ | ⟨hstamp, status, hstatus, hfound⟩ := Tap.lookup_alone hid hlog n t
    · rw [show found = _ from hfound]
      exact ⟨by simp, iff_of_true rfl hstamp, fun _ => ⟨rfl, rfl⟩⟩
    · rw [show found.status = _ from hmissing]
      exact ⟨by decide, iff_of_false (by decide) hstamp, fun h => absurd rfl h⟩
    · rw [show found = _ from hfound]
      have hlisted : status ∈ [LookupStatus.missing, .exact, .held, .stale] ∧ status ≠ .exact := by
        clear hfound
        revert status
        decide
      exact ⟨hlisted.1, iff_of_false hlisted.2 hstamp, fun _ => ⟨rfl, rfl⟩⟩
  · rw [Tap.lookup_before hid hhead hlast n hbefore]
  · exact Tap.lookup_exact hid hhead hlast n hbefore hx hstamp
  · rw [Tap.lookup_of_between_ends n hid hhead hlast hlow hhigh hne]
    exact ⟨rfl, rfl⟩
  · rw [Tap.lookup_after hid hhead hlast n hbefore hne hafter, if_pos (by push_cast; exact hheld)]
  · rw [Tap.lookup_after hid hhead hlast n hbefore hne hafter, if_neg (by push_cast; exact not_le.mpr hstale)]

end Sys2Proof.Machine
